-- ==== Sys2Proof/Word.lean ====
section
/-! DEFINITION. The words of the block: the widths that spec/ gives to fields of a command, to registers and
to the serial frame. Every value is unsigned (R8). -/

namespace Sys2Proof

/-- An 8-bit character code, opcode byte or control byte (R80, R130). -/
abbrev Byte := BitVec 8

/-- A 16-bit halfword: the operand field `H`, the registers `WPM` and `DROP_COUNT` (R34, R36, R80). -/
abbrev Half := BitVec 16

/-- A 32-bit word: the operand field `W`, the tuning word, the read data (R24, R32, R80). -/
abbrev Word := BitVec 32

/-- A 64-bit SGC-1 command word (R80). -/
abbrev Cmd := BitVec 64

/-- The 40-bit serial frame (R111). -/
abbrev Frame := BitVec 40

end Sys2Proof
end

