-- ==== Sys2Proof/Config.lean ====
section
/-! DEFINITION. The build parameters of R7 and the free values. A parameter with a single legal value is a
constant. The others are arguments: `Params` holds those that a command's result depends on, `Build` adds the
durations and the choices that the spec leaves free. This hardware's values stand in Machine/Parameters.lean; what
the spec leaves open for it is an opaque constant here. -/

namespace Sys2Proof

/-- A Morse symbol. -/
inductive Symbol where
  | dot
  | dash
deriving DecidableEq, Repr

/-- The ordered symbols of one character. -/
abbrev Pattern := List Symbol

/-- A dictionary: character codes with their patterns (R43, R131). -/
abbrev MorseTable := List (Byte × Pattern)

namespace Config

/-- `P_CTRL_BYTE`, frame bits 39:32, hardwired (R7, R111). -/
abbrev ctrlByte : Byte := 0x00#8

/-- `P_UNIT_NUM`, the numerator of the unit formula (R7, R133). -/
abbrev unitNum : Nat := 1200

/-- `P_TAIL_MS`, the tail after every message (R7, R134). -/
abbrev tailMs : Nat := 1000

/-- `P_WPM_MAX`, the largest legal speed (R7, R140). -/
abbrev wpmMax : Nat := 1200

/-- The build parameters of R7 that a command's result depends on. Which values are legal: `Params.Legal`. -/
structure Params where
  /-- `P_REFCLK_HZ`, the DDS reference clock `C` in Hz -/
  refclkHz : Nat
  /-- `P_MSG_DEPTH`, the entries of the message buffer -/
  msgDepth : Nat
  /-- `P_MORSE_TABLE`, the dictionary -/
  morseTable : MorseTable
deriving DecidableEq, Repr

/-- A build of the block: its parameters, and what it does where the spec leaves the choice free (R153, R222,
R230 and `P_TICK`), indexed by the clock edge. -/
structure Build extends Params where
  /-- `P_SER_PHASE_CYCLES` -/
  phaseCycles : Nat
  /-- `P_CALC_CYCLES` -/
  calcCycles : Nat
  /-- the check step ends at this edge -/
  checkEnds : Nat → Bool
  /-- a tick that comes too close is counted at this edge -/
  tickTaken : Nat → Bool
  /-- dropped characters counted ahead of need at this edge -/
  dropLead : Nat → Nat
  /-- the platform ticks at this edge, when no host input describes it -/
  platformTick : Nat → Bool

/-- How far the OPEN parameter `P_SER_PHASE_CYCLES` lies above its least legal value 1 (R7, R116). Free. -/
opaque serPhaseExtra : Nat

/-- How far the OPEN parameter `P_CALC_CYCLES` lies above its least legal value 1 (R7, R105). Free. -/
opaque calcExtra : Nat

/-- Whether a check step that may already end does end at a clock edge: its length `K` is open (R230). Free. -/
opaque checkEnds : Nat → Bool

/-- Whether a `tick_ms` that comes too close after the one before still counts for `REM` (R222). Free. -/
opaque tickTaken : Nat → Bool

/-- How many dropped characters the sequencer counts ahead of need at a clock edge (R153 gives a latest time
only). Free. -/
opaque dropLead : Nat → Nat

/-- Whether the platform asserts `tick_ms` at a clock edge that no host input describes (`P_TICK`, R7). Free. -/
opaque platformTick : Nat → Bool

end Config

end Sys2Proof
end

