-- ==== Sys2Proof/Syntax.lean ====
section
/-! DEFINITION. The syntax of SGC-1: one constructor for each of the nine rows of spec/opcode_table.json (R82).
Operands that the spec counts with (a frequency in Hz, a speed, an index, a length) are natural numbers whose
ranges WellFormed.lean checks; operands that it treats as bits are bit vectors (R81). -/

namespace Sys2Proof

/-- An SGC-1 command with its operands (R82). -/
inductive Instr where
  /-- `DDS.INIT` (R110) -/
  | ddsInit
  /-- `FTW.CALC f`, `f = W` (R105) -/
  | ftwCalc (f : Nat)
  /-- `FTW.LOAD word`, `word = W` (R114) -/
  | ftwLoad (word : Word)
  /-- `FTW.TUNE f`, `f = W` (R115) -/
  | ftwTune (f : Nat)
  /-- `MORSE.WPM wpm`, `wpm = H` (R140) -/
  | morseWpm (wpm : Nat)
  /-- `MSG.WR idx, ch`, `idx = H`, `ch = B` (R142) -/
  | msgWr (idx : Nat) (ch : Byte)
  /-- `MORSE.LOOKUP ch`, `ch = B` (R144) -/
  | morseLookup (ch : Byte)
  /-- `MORSE.TX len`, `len = H` (R146) -/
  | morseTx (len : Nat)
  /-- `CTRL.SET ind_en, strict`, `ind_en = B[0]`, `strict = B[1]` (R170) -/
  | ctrlSet (indEn strict : Bool)
deriving DecidableEq, Repr

end Sys2Proof
end

