-- ==== Sys2Proof/WellFormed.lean ====
section
/-! DEFINITION. Which terms of `Instr` are commands: each numeric operand fits its field (R80, R81), which is
also the range the assembler accepts (R87). A speed of 0, an index past the buffer and the like ARE well formed:
they encode and then fault at execution (R87, R140, R142). -/

namespace Sys2Proof

/-- The operand fits the word field `W`, 0 .. 4294967295 (R87). -/
def fitsW (n : Nat) : Bool := n < 2 ^ 32

/-- The operand fits the halfword field `H`, 0 .. 65535 (R87). -/
def fitsH (n : Nat) : Bool := n < 2 ^ 16

/-- Every operand of the command fits its field (R81, R87). -/
def Instr.wellFormed : Instr → Bool
  | .ddsInit => true
  | .ftwCalc f => fitsW f
  | .ftwLoad _ => true
  | .ftwTune f => fitsW f
  | .morseWpm wpm => fitsH wpm
  | .msgWr idx _ => fitsH idx
  | .morseLookup _ => true
  | .morseTx len => fitsH len
  | .ctrlSet _ _ => true

end Sys2Proof
end

