-- ==== Sys2Proof/Decode.lean ====
section
/-! DEFINITION. SGC-1 decoding and encoding (R80 to R86): the fields of the command word, the match and mask of
each opcode, the total decoder, and the encoder written from the same table. -/

namespace Sys2Proof

/-- `OPC` = `cmd[63:56]` (R80). -/
def fieldOpc (c : Cmd) : Byte := c.extractLsb' 56 8

/-- `B` = `cmd[55:48]` (R80). -/
def fieldB (c : Cmd) : Byte := c.extractLsb' 48 8

/-- `H` = `cmd[47:32]` (R80). -/
def fieldH (c : Cmd) : Half := c.extractLsb' 32 16

/-- `W` = `cmd[31:0]` (R80). -/
def fieldW (c : Cmd) : Word := c.extractLsb' 0 32

/-- The two ways a word is no command (R83). -/
inductive DecodeFault where
  /-- `ILLEGAL_OPCODE`: the opcode byte is none of the nine (R84) -/
  | illegalOpcode
  /-- `RESERVED_FIELD`: a must-be-zero bit of a legal opcode is 1 (R85) -/
  | reservedField
deriving DecidableEq, Repr

/-- A row of the opcode table: the opcode, the mask of the fixed bits, and the command its operand fields give. -/
structure OpcodeRow where
  opc : Byte
  mask : Cmd
  build : Cmd → Instr

/-- The value that the fixed bits of a row have: the opcode above zeros (R82). -/
def OpcodeRow.pattern (r : OpcodeRow) : Cmd := r.opc ++ 0#56

/-- The opcode table of R82. -/
def opcodeRows : List OpcodeRow :=
  [ ⟨0x01#8, 0xFFFFFFFFFFFFFFFF#64, fun _ => .ddsInit⟩,
    ⟨0x02#8, 0xFFFFFFFF00000000#64, fun c => .ftwCalc (fieldW c).toNat⟩,
    ⟨0x03#8, 0xFFFFFFFF00000000#64, fun c => .ftwLoad (fieldW c)⟩,
    ⟨0x04#8, 0xFFFFFFFF00000000#64, fun c => .ftwTune (fieldW c).toNat⟩,
    ⟨0x10#8, 0xFFFF0000FFFFFFFF#64, fun c => .morseWpm (fieldH c).toNat⟩,
    ⟨0x11#8, 0xFF000000FFFFFFFF#64, fun c => .msgWr (fieldH c).toNat (fieldB c)⟩,
    ⟨0x12#8, 0xFF00FFFFFFFFFFFF#64, fun c => .morseLookup (fieldB c)⟩,
    ⟨0x13#8, 0xFFFF0000FFFFFFFF#64, fun c => .morseTx (fieldH c).toNat⟩,
    ⟨0x20#8, 0xFFFCFFFFFFFFFFFF#64, fun c => .ctrlSet ((fieldB c).getLsbD 0) ((fieldB c).getLsbD 1)⟩ ]

/-- The decoder: a total function of the 64-bit word (R83). The opcode is looked at before the reserved bits. -/
def decode (c : Cmd) : Except DecodeFault Instr :=
  match opcodeRows.find? (fun r => r.opc == fieldOpc c) with
  | none => .error .illegalOpcode
  | some r => if c &&& r.mask = r.pattern then .ok (r.build c) else .error .reservedField

/-- The opcode byte of a command (R82). -/
def Instr.opcode : Instr → Byte
  | .ddsInit => 0x01#8
  | .ftwCalc _ => 0x02#8
  | .ftwLoad _ => 0x03#8
  | .ftwTune _ => 0x04#8
  | .morseWpm _ => 0x10#8
  | .msgWr _ _ => 0x11#8
  | .morseLookup _ => 0x12#8
  | .morseTx _ => 0x13#8
  | .ctrlSet _ _ => 0x20#8

/-- A command word from its four fields (R80). -/
def packFields (opc b : Byte) (h : Half) (w : Word) : Cmd := opc ++ b ++ h ++ w

/-- The byte operand of CTRL.SET: `strict` in bit 1, `ind_en` in bit 0, the rest zero (R82, R170). -/
def ctrlByteOperand (indEn strict : Bool) : Byte := 0#6 ++ BitVec.ofBool strict ++ BitVec.ofBool indEn

/-- The word of a command (R80, R82): fields the command does not use are zero (R85). -/
def encode (i : Instr) : Cmd :=
  match i with
  | .ddsInit => packFields i.opcode 0#8 0#16 0#32
  | .ftwCalc f => packFields i.opcode 0#8 0#16 (BitVec.ofNat 32 f)
  | .ftwLoad word => packFields i.opcode 0#8 0#16 word
  | .ftwTune f => packFields i.opcode 0#8 0#16 (BitVec.ofNat 32 f)
  | .morseWpm wpm => packFields i.opcode 0#8 (BitVec.ofNat 16 wpm) 0#32
  | .msgWr idx ch => packFields i.opcode ch (BitVec.ofNat 16 idx) 0#32
  | .morseLookup ch => packFields i.opcode ch 0#16 0#32
  | .morseTx len => packFields i.opcode 0#8 (BitVec.ofNat 16 len) 0#32
  | .ctrlSet indEn strict => packFields i.opcode (ctrlByteOperand indEn strict) 0#16 0#32

/-- The command word whose low `nbits` bits are `w`, the rest zero. Every command is one 64-bit word that arrives
in parallel (R80, R86), so bit 0 of the opcode table is bit 0 of `cmd_data`. -/
def tableCmd (nbits w : Nat) : Cmd := BitVec.ofNat 64 (w % 2 ^ nbits)

/-- The instruction the decoder reads from an instruction whose bits are `w`, of which the opcode table gives
`nbits`. -/
def decodeTableWord (nbits w : Nat) : Option Instr := (decode (tableCmd nbits w)).toOption

end Sys2Proof
end

