-- ==== Sys2Proof/Machine/State.lean ====
section
/-! DEFINITION. The state of the block as plain data: every register of R41, the hidden sequencer state of R45,
the message buffer of R42, and the model's own fields (the inputs to come, the observations of R12, and two
counters that only the free values and the tick duty read). The reset state is R41's. -/

namespace Sys2Proof.Machine

/-- The values of `STATUS.FAULT_CODE` (R180). The codes 9 to 15 are never produced, so they have no name here. -/
inductive FaultCode where
  /-- 0: no fault since reset -/
  | none
  /-- 1: the opcode byte is none of the nine -/
  | illegalOpcode
  /-- 2: a must-be-zero bit of a legal opcode is 1 -/
  | reservedField
  /-- 3: FTW.LOAD or FTW.TUNE with `INIT_DONE` = 0 -/
  | notInit
  /-- 4: DDS.INIT with `INIT_DONE` = 1 -/
  | reinit
  /-- 5: `STRICT` = 1 and `2*f >= C` -/
  | freqRange
  /-- 6: MORSE.WPM with 0 or above 1200; MORSE.TX with `WPM` = 0 -/
  | wpmRange
  /-- 7: MSG.WR with `idx >= P_MSG_DEPTH`; MORSE.TX with `len > P_MSG_DEPTH` -/
  | msgRange
  /-- 8: MORSE.TX reaches an entry that was never written -/
  | msgUnwritten
deriving DecidableEq, Repr

/-- `ENG`, what the sequencer is doing (R45). -/
inductive Engine where
  /-- `IDLE`: waiting for a command -/
  | idle
  /-- `CHECK`: decoding and checking the accepted command (R182) -/
  | check
  /-- `CALC`: the tuning-word arithmetic (R105) -/
  | calcWord
  /-- `INIT_SEQ`: the three phases of DDS.INIT (R110) -/
  | initSeq
  /-- `SER`: the 122 phases of a serial load (R112) -/
  | ser
  /-- `MORSE`: the keying sequencer (R151) -/
  | morse
deriving DecidableEq, Repr

/-- The five DDS line registers (R38): output enable, write clock, latch, data, reset line. -/
structure DdsLines where
  oe : Bool
  wclk : Bool
  fqud : Bool
  data : Bool
  rstLine : Bool
deriving DecidableEq, Repr

/-- The lines after `rst` (R41): undriven, every line register 0. -/
def DdsLines.reset : DdsLines := ⟨false, false, false, false, false⟩

/-- One keying segment: the key line at `level` for `ms` ticks (R11). -/
structure Segment where
  level : Bool
  ms : Nat
deriving DecidableEq, Repr

/-- An entry of the observed keying trace (R12 (3)): a segment with the indicator's level in it. -/
structure KeyEvent where
  level : Bool
  ms : Nat
  ind : Bool
deriving DecidableEq, Repr

/-- What R12 (4) observes of the command port. -/
inductive CmdEvent where
  /-- a command word was accepted (R23) -/
  | accepted (word : Cmd)
  /-- the command in progress completed -/
  | completed
  /-- the command in progress faulted, with the fault record (R181) -/
  | faulted (code : FaultCode) (opc : Byte)
deriving DecidableEq, Repr

/-- The hidden sequencer state (R45), under the names of the rule. -/
structure Sequencer where
  /-- `ENG` -/
  eng : Engine
  /-- `PH`, the DDS phase index -/
  ph : Nat
  /-- `CYC`, cycles spent in the current step -/
  cyc : Nat
  /-- `CI`, the Morse character index; the message length while the tail is sent -/
  ci : Nat
  /-- `SI`, the symbol index within the pattern; the pattern length in the letter gap -/
  si : Nat
  /-- `SUB`, 0 in a symbol's mark or in a gap, 1 in the pause after a symbol -/
  sub : Nat
  /-- `REM`, milliseconds left in the current segment -/
  rem : Nat
  /-- `ALIGN`, waiting for the first tick -/
  align : Bool
  /-- `OPW`, the accepted command word, whose operand fields are the latched operand -/
  opw : Cmd
deriving DecidableEq, Repr

/-- The sequencer after `rst` and between commands (R41). -/
def Sequencer.idle : Sequencer := ⟨.idle, 0, 0, 0, 0, 0, 0, false, 0#64⟩

/-- The input pins sampled at one rising edge of `clk` (R22, R23, R25). `rd_addr` is not among them: no register
depends on it (R24). -/
structure Pins where
  rst : Bool
  cmdValid : Bool
  cmdData : Cmd
  tickMs : Bool
deriving DecidableEq, Repr

/-- An input that the host and the platform have yet to deliver. -/
inductive HostInput where
  /-- one rising clock edge with these pins: the clock-level view of R22 -/
  | edge (pins : Pins)
  /-- the host offers this word and waits until it has completed (R88 `WAIT`, R220): the transaction-level view
  that R12 allows -/
  | command (word : Cmd)
deriving DecidableEq, Repr

/-- The message buffer (R42, R60): the valid entries, as (index, byte), indices strictly rising. An entry that is
not listed is not valid and holds no value that anything can read (R41). -/
abbrev Memory := List Host.Cell

/-- The whole machine. -/
structure State where
  /-- `STATUS.BUSY` (R30) -/
  busy : Bool
  /-- `STATUS.INIT_DONE` (R30) -/
  initDone : Bool
  /-- `STATUS.OOR` (R30) -/
  oor : Bool
  /-- `STATUS.HALTED` (R30) -/
  halted : Bool
  /-- `STATUS.FAULT_CODE` (R30, R180) -/
  faultCode : FaultCode
  /-- `STATUS.FAULT_OPC` (R30, R181) -/
  faultOpc : Byte
  /-- `CTRL.IND_EN` (R31) -/
  indEn : Bool
  /-- `CTRL.STRICT` (R31) -/
  strict : Bool
  /-- `FTW` (R32) -/
  ftw : Word
  /-- `DDS_WORD` (R33) -/
  ddsWord : Word
  /-- `WPM` (R34); `UNIT_MS` is derived from it (R35) -/
  wpm : Half
  /-- `DROP_COUNT` (R36) -/
  dropCount : Half
  /-- `LOOKUP` (R37) -/
  lookup : Word
  /-- `MSG` (R42) -/
  msg : Memory
  /-- `DDS_OE`, `WCLK`, `FQUD`, `DATA`, `RST_LINE` (R38) -/
  lines : DdsLines
  /-- `KEY` (R38) -/
  key : Bool
  /-- `IND` (R38) -/
  ind : Bool
  /-- the sequencer (R45) -/
  seq : Sequencer
  /-- MODEL: the DDS line trace so far, one entry a `phase` event (R12 (2)) -/
  ddsTrace : List DdsLines
  /-- MODEL: the keying trace so far (R12 (3)) -/
  keyTrace : List KeyEvent
  /-- MODEL: command acceptance and completion so far (R12 (4)) -/
  cmdTrace : List CmdEvent
  /-- MODEL: the inputs to come -/
  script : List HostInput
  /-- MODEL: clock edges run, the index of the free values -/
  cycle : Nat
  /-- MODEL: clock edges since the last tick, saturating at `tickGapMax` (R222) -/
  tickGap : Nat
deriving DecidableEq, Repr

/-- Where the count of edges since the last tick stops: no legal build asks for more between two ticks (R7, R222). -/
abbrev tickGapMax : Nat := 65535 + 4

/-- The machine right after reset (R41, R210), with nothing observed yet and no input to come. -/
def State.reset : State where
  busy := false
  initDone := false
  oor := false
  halted := false
  faultCode := .none
  faultOpc := 0x00#8
  indEn := false
  strict := false
  ftw := 0x00000000#32
  ddsWord := 0x00000000#32
  wpm := 0#16
  dropCount := 0#16
  lookup := 0x00000000#32
  msg := []
  lines := DdsLines.reset
  key := false
  ind := false
  seq := Sequencer.idle
  ddsTrace := []
  keyTrace := []
  cmdTrace := []
  script := []
  cycle := 0
  tickGap := tickGapMax

/-- Why a step stops outright. The faults of R180 are no such stop: the block takes them (R183) and goes on to a
halted state. -/
inductive Fault where
  /-- The hidden sequencer contradicts the command it is running (for example a serial load in progress with a
  Morse command latched). Raised by `step` only. The spec keeps every run from such a state (R45, R46, R182), so
  it describes no behaviour there; stopping is safe. -/
  | sequencerInconsistent
deriving DecidableEq, Repr

/-- Why an instruction is turned away. -/
inductive Refusal where
  /-- The instruction has no meaning in this model. Raised by no arm of `exec`: all nine commands are modelled.
  Safe. -/
  | notModelled (mnemonic : String)
deriving DecidableEq, Repr

/-- The answer of a meaning and of a step. -/
abbrev Result := Host.Outcome State Fault Refusal

end Sys2Proof.Machine
end

