-- ==== Sys2Proof/Machine/Ops.lean ====
section
/-! DEFINITION. The named operations of the register-transfer notation: the message buffer (R10, R60), the DDS
lines and keying lines (R11, R38), accepting and completing a command (R23, R39), taking a fault (R183), and
reset, the only exit from a fault (R184, R210). -/

namespace Sys2Proof.Machine

/-! ## The message buffer -/

/-- `MemRead(i, 1)`, with `Valid(i)`: the byte of entry `i`, none when its valid bit is 0 (R10). -/
def memRead : Memory → Nat → Option Byte
  | [], _ => none
  | (a, b) :: m, i => if a = i then some b else memRead m i

/-- `MemWrite(i, 1, v)`: entry `i` holds `v` and is valid (R10). It replaces an entry or inserts one in order. -/
def memWrite : Memory → Nat → Byte → Memory
  | [], i, v => [(i, v)]
  | (a, b) :: m, i, v =>
    if i < a then (i, v) :: (a, b) :: m
    else if i = a then (i, v) :: m
    else (a, b) :: memWrite m i v

/-- `Valid(i)`, the valid bit of entry `i` (R10). -/
def memValid (m : Memory) (i : Nat) : Bool := (memRead m i).isSome

/-- The canonical form of a buffer of `depth` = `P_MSG_DEPTH` entries: indices strictly rising and below it (R60). -/
def Memory.wf (depth : Nat) : Memory → Bool
  | [] => true
  | [(a, _)] => a < depth
  | (a, _) :: (b, w) :: m => a < b && Memory.wf depth ((b, w) :: m)

/-- Entries `0 .. len-1` all have their valid bit set (R146). -/
def allValid (m : Memory) (len : Nat) : Bool := (List.range len).all (memValid m)

/-- The message bytes `MSG[0 .. len-1]` in index order (R60, R62). -/
def msgBytes (m : Memory) (len : Nat) : List Byte := (List.range len).filterMap (memRead m)

/-! ## The lines -/

/-- What one `phase` of R110 or R112 names. -/
inductive LineChange where
  /-- I0: `DDS_OE := 1` and the four lines 0 (R110) -/
  | enable
  /-- `RST_LINE := b` -/
  | rstLine (b : Bool)
  /-- `DATA := b` -/
  | data (b : Bool)
  /-- `WCLK := b` -/
  | wclk (b : Bool)
  /-- `FQUD := b` -/
  | fqud (b : Bool)
deriving DecidableEq, Repr

/-- The lines after a change; lines not named keep their values (R11). -/
def applyChange : LineChange → DdsLines → DdsLines
  | .enable, _ => ⟨true, false, false, false, false⟩
  | .rstLine b, l => { l with rstLine := b }
  | .data b, l => { l with data := b }
  | .wclk b, l => { l with wclk := b }
  | .fqud b, l => { l with fqud := b }

/-- Begin one `phase` (R11): the lines change at once, and the phase joins the line trace (R12 (2)). -/
def phase (c : LineChange) (s : State) : State :=
  { s with lines := applyChange c s.lines, ddsTrace := s.ddsTrace ++ [applyChange c s.lines] }

/-- A sequence of phases. -/
def phases (cs : List LineChange) (s : State) : State := cs.foldl (fun s c => phase c s) s

/-- Begin one keying segment (R11 `emit`, R146, R152): `KEY <- level`, `IND <- level AND IND_EN`, and the segment
joins the keying trace (R12 (3)). -/
def emit (g : Segment) (s : State) : State :=
  { s with
    key := g.level
    ind := g.level && s.indEn
    keyTrace := s.keyTrace ++ [⟨g.level, g.ms, g.level && s.indEn⟩] }

/-- A sequence of segments. -/
def emitAll (gs : List Segment) (s : State) : State := gs.foldl (fun s g => emit g s) s

/-! ## Accepting, completing, faulting, resetting -/

/-- Acceptance of a command word (R23): `BUSY <- 1`, the word is latched, the check step begins. -/
def accept (w : Cmd) (s : State) : State :=
  { s with
    busy := true
    seq := { Sequencer.idle with eng := .check, opw := w }
    cmdTrace := s.cmdTrace ++ [.accepted w] }

/-- Completion of the command in progress (R39): `BUSY <- 0`, the sequencer is idle. -/
def finish (s : State) : State :=
  { s with busy := false, seq := Sequencer.idle, cmdTrace := s.cmdTrace ++ [.completed] }

/-- TAKING A FAULT (R183): the code and the opcode byte are recorded, `HALTED <- 1`, `BUSY <- 0`, and nothing
else changes. The sequencer, which only `BUSY` shows, is quiescent again. -/
def takeFault (code : FaultCode) (opc : Byte) (s : State) : State :=
  { s with
    faultCode := code
    faultOpc := opc
    halted := true
    busy := false
    seq := Sequencer.idle
    cmdTrace := s.cmdTrace ++ [.faulted code opc] }

/-- `rst` (R22, R210), the only exit from a fault (R184) and the only abort of a command (R212): every register
takes its reset value. The model's own fields stay: the inputs to come, what has been observed, the counters. -/
def resetBlock (s : State) : State :=
  { State.reset with
    ddsTrace := s.ddsTrace
    keyTrace := s.keyTrace
    cmdTrace := s.cmdTrace
    script := s.script
    cycle := s.cycle
    tickGap := s.tickGap }

/-- One whole command after acceptance (R13, R182): its checks come first, and a fault changes nothing but the
fault record; otherwise the command has its effect and completes. -/
def runCommand (opc : Byte) (check : Option FaultCode) (effect : State → State) (s : State) : Result :=
  match check with
  | some code => .next (takeFault code opc s)
  | none => .next (finish (effect s))

/-- The fault code of a decode fault (R83, R180). -/
def decodeFaultCode : DecodeFault → FaultCode
  | .illegalOpcode => .illegalOpcode
  | .reservedField => .reservedField

end Sys2Proof.Machine
end

