-- ==== Sys2Proof/Machine/Dictionary.lean ====
section
/-! DEFINITION. Characters and the Morse dictionary: case folding (R130), the table `P_MORSE_TABLE` with its
default contents (R131, R43), classification (R132), and the layout of `LOOKUP` (R37, R144). The functions take
the table as an argument, as R131 asks. -/

namespace Sys2Proof.Machine

/-- `fold`: `a`-`z` to `A`-`Z`, every other code unchanged (R130). -/
def fold (c : Byte) : Byte := if 0x61 ≤ c.toNat ∧ c.toNat ≤ 0x7A then c - 0x20#8 else c

/-- The digits' patterns of R131. -/
def digitTable : MorseTable :=
  [ (0x30#8, [.dash, .dash, .dash, .dash, .dash]),
    (0x31#8, [.dot, .dash, .dash, .dash, .dash]),
    (0x32#8, [.dot, .dot, .dash, .dash, .dash]),
    (0x33#8, [.dot, .dot, .dot, .dash, .dash]),
    (0x34#8, [.dot, .dot, .dot, .dot, .dash]),
    (0x35#8, [.dot, .dot, .dot, .dot, .dot]),
    (0x36#8, [.dash, .dot, .dot, .dot, .dot]),
    (0x37#8, [.dash, .dash, .dot, .dot, .dot]),
    (0x38#8, [.dash, .dash, .dash, .dot, .dot]),
    (0x39#8, [.dash, .dash, .dash, .dash, .dot]) ]

/-- The letters' patterns of R131. -/
def letterTable : MorseTable :=
  [ (0x41#8, [.dot, .dash]),
    (0x42#8, [.dash, .dot, .dot, .dot]),
    (0x43#8, [.dash, .dot, .dash, .dot]),
    (0x44#8, [.dash, .dot, .dot]),
    (0x45#8, [.dot]),
    (0x46#8, [.dot, .dot, .dash, .dot]),
    (0x47#8, [.dash, .dash, .dot]),
    (0x48#8, [.dot, .dot, .dot, .dot]),
    (0x49#8, [.dot, .dot]),
    (0x4A#8, [.dot, .dash, .dash, .dash]),
    (0x4B#8, [.dash, .dot, .dash]),
    (0x4C#8, [.dot, .dash, .dot, .dot]),
    (0x4D#8, [.dash, .dash]),
    (0x4E#8, [.dash, .dot]),
    (0x4F#8, [.dash, .dash, .dash]),
    (0x50#8, [.dot, .dash, .dash, .dot]),
    (0x51#8, [.dash, .dash, .dot, .dash]),
    (0x52#8, [.dot, .dash, .dot]),
    (0x53#8, [.dot, .dot, .dot]),
    (0x54#8, [.dash]),
    (0x55#8, [.dot, .dot, .dash]),
    (0x56#8, [.dot, .dot, .dot, .dash]),
    (0x57#8, [.dot, .dash, .dash]),
    (0x58#8, [.dash, .dot, .dot, .dash]),
    (0x59#8, [.dash, .dot, .dash, .dash]),
    (0x5A#8, [.dash, .dash, .dot, .dot]) ]

/-- The default value of `P_MORSE_TABLE` (R43, R131), and its value for this hardware (R7). PRESUMED by the spec
itself for every key but `1`, `A`, `O` and `S`: unsafe for a claim about another character (log entry 15). -/
def defaultMorseTable : MorseTable := digitTable ++ letterTable

/-- The 36 keys a table must have, `0`-`9` and `A`-`Z` (R43, R131). -/
def morseKeys : List Byte := defaultMorseTable.map Prod.fst

/-- The legal values of `P_MORSE_TABLE` (R131): the 36 keys, each pattern of 1 to 5 symbols. -/
def legalTable (t : MorseTable) : Bool :=
  (t.map Prod.fst).isPerm morseKeys && t.all (fun e => 1 ≤ e.2.length && e.2.length ≤ 5)

/-- The pattern of a code, when it is a key of the table. -/
def patternOf : MorseTable → Byte → Option Pattern
  | [], _ => none
  | (k, p) :: t, c => if k = c then some p else patternOf t c

/-- The three outcomes of the dictionary (R132). -/
inductive CharClass where
  | unsupported
  | space
  | pattern (p : Pattern)
deriving DecidableEq, Repr

/-- `classify`, total over the 256 codes and without case folding (R132). -/
def classify (t : MorseTable) (c : Byte) : CharClass :=
  if c = 0x20#8 then .space
  else match patternOf t c with
    | some p => .pattern p
    | none => .unsupported

/-- What MORSE.TX makes of a message byte: fold, then classify (R132, R150). -/
def classifyFolded (t : MorseTable) (c : Byte) : CharClass := classify t (fold c)

/-- `patbits`: bit `j` is 1 exactly when symbol `j` is a dash (R144). -/
def patBits : Pattern → Nat
  | [] => 0
  | .dot :: p => 2 * patBits p
  | .dash :: p => 2 * patBits p + 1

/-- The value MORSE.LOOKUP leaves in `LOOKUP` (R37, R144). -/
def lookupValue : CharClass → Word
  | .unsupported => 0#32
  | .space => 1#32
  | .pattern p => BitVec.ofNat 32 (2 ||| (p.length <<< 2) ||| (patBits p <<< 5))

/-- How many bytes of a message are dropped: unsupported after case folding (R153). -/
def dropTotal (t : MorseTable) (m : List Byte) : Nat :=
  m.countP (fun c => classifyFolded t c == .unsupported)

end Sys2Proof.Machine
end

