-- ==== Sys2Proof/Machine/Parameters.lean ====
section
/-! DEFINITION. Which build parameters are legal, and those of this hardware (R7). Every operation that depends on
a parameter takes it as an argument; only `exec` and `step` are at this hardware's values. -/

namespace Sys2Proof

/-- The legal values of R7: a clock of 1 to 2^32-1 Hz, a buffer of 1 to 65535 entries, a table of R131. -/
def Config.Params.Legal (P : Config.Params) : Prop :=
  1 ≤ P.refclkHz ∧ P.refclkHz < 2 ^ 32 ∧ 1 ≤ P.msgDepth ∧ P.msgDepth ≤ 65535 ∧
    Machine.legalTable P.morseTable = true

/-- The legal values of R7, the OPEN durations among them: at least one cycle each. -/
def Config.Build.Legal (B : Config.Build) : Prop :=
  B.toParams.Legal ∧ 1 ≤ B.phaseCycles ∧ 1 ≤ B.calcCycles

namespace Machine

/-- The parameters of this hardware (R7, column "value for this hardware"). -/
def hardware : Config.Params where
  refclkHz := 125000000
  msgDepth := 256
  morseTable := defaultMorseTable

/-- This hardware as a build: any legal durations, any choice where the spec leaves one free. -/
def hardwareBuild : Config.Build where
  toParams := hardware
  phaseCycles := Config.serPhaseExtra + 1
  calcCycles := Config.calcExtra + 1
  checkEnds := Config.checkEnds
  tickTaken := Config.tickTaken
  dropLead := Config.dropLead
  platformTick := Config.platformTick

end Machine

end Sys2Proof
end

