-- ==== Sys2Proof/Machine/Flags.lean ====
section
/-! DEFINITION. Every flag and derived field the spec computes: the out-of-range flag (R102), `UNIT_MS` (R35,
R133), the words of `STATUS` and `CTRL` (R30, R31), and `cmd_ready` (R23). -/

namespace Sys2Proof.Machine

/-- `oor(f, C) = (2*f >= C)` (R102; conflict C2 of spec/90_conflicts.md: the boundary counts as out of range). -/
def outOfRange (f C : Nat) : Bool := decide (2 * f ≥ C)

/-- `UNIT_MS = (WPM = 0) ? 0 : 1200 div WPM` (R35, R133). -/
def unitMs (wpm : Half) : Nat := if wpm = 0#16 then 0 else Config.unitNum / wpm.toNat

/-- `STATUS.FAULT_CODE` as its 4 bits (R180). -/
def faultCodeBits : FaultCode → BitVec 4
  | .none => 0
  | .illegalOpcode => 1
  | .reservedField => 2
  | .notInit => 3
  | .reinit => 4
  | .freqRange => 5
  | .wpmRange => 6
  | .msgRange => 7
  | .msgUnwritten => 8

/-- The word of `STATUS` (R30): `FAULT_OPC`, `FAULT_CODE`, `HALTED`, `OOR`, `INIT_DONE`, `BUSY`. -/
def statusWord (s : State) : Word :=
  0#16 ++ s.faultOpc ++ faultCodeBits s.faultCode ++ BitVec.ofBool s.halted ++ BitVec.ofBool s.oor
    ++ BitVec.ofBool s.initDone ++ BitVec.ofBool s.busy

/-- The word of `CTRL` (R31): `STRICT`, `IND_EN`. -/
def ctrlWord (s : State) : Word := 0#30 ++ BitVec.ofBool s.strict ++ BitVec.ofBool s.indEn

/-- `cmd_ready` (R23): 1 exactly when not busy, not halted and not in reset. -/
def cmdReady (s : State) (rst : Bool) : Bool := !s.busy && !s.halted && !rst

end Sys2Proof.Machine
end

