-- ==== Sys2Proof/Machine/Operands.lean ====
section
/-! DEFINITION. The checks each command makes on its operands and on the state, in the order of R186 (the table
of R195). Each answers the fault it reports, or none. The operand fields themselves are taken out of the command
word by Decode.lean (R80, R81). -/

namespace Sys2Proof.Machine

/-- The first fault of a list of checks (R186). -/
def firstFault : List (Bool × FaultCode) → Option FaultCode
  | [] => none
  | (bad, code) :: rest => if bad then some code else firstFault rest

/-- DDS.INIT: `REINIT` when `INIT_DONE` = 1 (R110). -/
def checkDdsInit (s : State) : Option FaultCode := firstFault [(s.initDone, .reinit)]

/-- The strict range check of R105 and R115: `STRICT` = 1 and `2*f >= C`. -/
def strictRangeBad (P : Config.Params) (f : Nat) (s : State) : Bool := s.strict && outOfRange f P.refclkHz

/-- FTW.CALC: `FREQ_RANGE` (R105). -/
def checkFtwCalc (P : Config.Params) (f : Nat) (s : State) : Option FaultCode :=
  firstFault [(strictRangeBad P f s, .freqRange)]

/-- FTW.LOAD: `NOT_INIT` (R114). -/
def checkFtwLoad (s : State) : Option FaultCode := firstFault [(!s.initDone, .notInit)]

/-- FTW.TUNE: `NOT_INIT`, then `FREQ_RANGE` (R115). -/
def checkFtwTune (P : Config.Params) (f : Nat) (s : State) : Option FaultCode :=
  firstFault [(!s.initDone, .notInit), (strictRangeBad P f s, .freqRange)]

/-- MORSE.WPM: `WPM_RANGE` for 0 or above 1200 (R140). -/
def checkMorseWpm (wpm : Nat) : Option FaultCode :=
  firstFault [(decide (wpm = 0 ∨ Config.wpmMax < wpm), .wpmRange)]

/-- MSG.WR: `MSG_RANGE` for an index at or above `P_MSG_DEPTH` (R63, R142). -/
def checkMsgWr (P : Config.Params) (idx : Nat) : Option FaultCode :=
  firstFault [(decide (P.msgDepth ≤ idx), .msgRange)]

/-- MORSE.TX: `WPM_RANGE`, then `MSG_RANGE`, then `MSG_UNWRITTEN` (R146). -/
def checkMorseTx (P : Config.Params) (len : Nat) (s : State) : Option FaultCode :=
  firstFault
    [ (decide (s.wpm = 0#16), .wpmRange),
      (decide (P.msgDepth < len), .msgRange),
      (!allValid s.msg len, .msgUnwritten) ]

/-- The checks of every command (R195). MORSE.LOOKUP and CTRL.SET make none. -/
def checkInstr (P : Config.Params) (i : Instr) (s : State) : Option FaultCode :=
  match i with
  | .ddsInit => checkDdsInit s
  | .ftwCalc f => checkFtwCalc P f s
  | .ftwLoad _ => checkFtwLoad s
  | .ftwTune f => checkFtwTune P f s
  | .morseWpm wpm => checkMorseWpm wpm
  | .msgWr idx _ => checkMsgWr P idx
  | .morseLookup _ => none
  | .morseTx len => checkMorseTx P len s
  | .ctrlSet _ _ => none

end Sys2Proof.Machine
end

