-- ==== Sys2Proof/Machine/Control.lean ====
section
/-! DEFINITION. The control family: CTRL.SET (R170). SGC-1 has no other control command (R171). -/

namespace Sys2Proof.Machine

/-- `CTRL.IND_EN <- B[0]`, `CTRL.STRICT <- B[1]` (R170). -/
def writeCtrl (indEn strict : Bool) (s : State) : State := { s with indEn := indEn, strict := strict }

/-- CTRL.SET ind_en, strict (R170): it makes no check. -/
def execCtrlSet (indEn strict : Bool) (s : State) : Result :=
  runCommand 0x20#8 none (writeCtrl indEn strict) s

end Sys2Proof.Machine
end

