-- ==== Sys2Proof/Machine/Ftw.lean ====
section
/-! DEFINITION. The FTW family: the tuning-word arithmetic (R100 to R103), the serial frame and its phases (R110
to R113), and the meanings of DDS.INIT, FTW.CALC, FTW.LOAD and FTW.TUNE. -/

namespace Sys2Proof.Machine

/-- `ftw(f, C) = trunc_32((f * 2^32) div C)` (R100), exact and truncated (R101). -/
def tuningWord (f C : Nat) : Word := BitVec.ofNat 32 (f * 2 ^ 32 / C)

/-- `frame(w)`: the control byte above the tuning word (R111). -/
def frame (w : Word) : Frame := Config.ctrlByte ++ w

/-- Phase `k` of DDS.INIT, I0 to I2 (R110). -/
def initPhase : Nat → LineChange
  | 0 => .enable
  | 1 => .rstLine true
  | _ => .rstLine false

/-- The three phases of DDS.INIT (R110). -/
def initPhases : List LineChange := (List.range 3).map initPhase

/-- Phase `S(k)` of a serial load of the frame `fr`, S0 to S121 (R112). -/
def serialPhase (fr : Frame) (k : Nat) : LineChange :=
  if k < 120 then
    match k % 3 with
    | 0 => .data (fr.getLsbD (k / 3))
    | 1 => .wclk true
    | _ => .wclk false
  else .fqud (k == 120)

/-- The 122 phases of `serial_load(w)` (R112). -/
def serialPhases (w : Word) : List LineChange := (List.range 122).map (serialPhase (frame w))

/-- `INIT_DONE <- 1`, after I2 (R110). -/
def setInitDone (s : State) : State := { s with initDone := true }

/-- `FTW <- ftw(f, C)` and `OOR <- (2*f >= C)` (R105, R115). -/
def writeTuning (P : Config.Params) (f : Nat) (s : State) : State :=
  { s with ftw := tuningWord f P.refclkHz, oor := outOfRange f P.refclkHz }

/-- `DDS_WORD <- w`, when S121 ends (R112). -/
def setDdsWord (w : Word) (s : State) : State := { s with ddsWord := w }

/-- `serial_load(w)` as a whole (R112). -/
def serialLoad (w : Word) (s : State) : State := setDdsWord w (phases (serialPhases w) s)

/-- DDS.INIT (R110). -/
def execDdsInit (s : State) : Result :=
  runCommand 0x01#8 (checkDdsInit s) (fun s => setInitDone (phases initPhases s)) s

/-- FTW.CALC f (R105) in a build with parameters `P`. -/
def runFtwCalc (P : Config.Params) (f : Nat) (s : State) : Result :=
  runCommand 0x02#8 (checkFtwCalc P f s) (writeTuning P f) s

/-- FTW.CALC f (R105). -/
def execFtwCalc (f : Nat) (s : State) : Result := runFtwCalc hardware f s

/-- FTW.LOAD word (R114). -/
def execFtwLoad (word : Word) (s : State) : Result :=
  runCommand 0x03#8 (checkFtwLoad s) (serialLoad word) s

/-- FTW.TUNE f (R115) in a build with parameters `P`: it loads the word it has just written to `FTW` (R32). -/
def runFtwTune (P : Config.Params) (f : Nat) (s : State) : Result :=
  runCommand 0x04#8 (checkFtwTune P f s) (fun s => serialLoad (writeTuning P f s).ftw (writeTuning P f s)) s

/-- FTW.TUNE f (R115). -/
def execFtwTune (f : Nat) (s : State) : Result := runFtwTune hardware f s

end Sys2Proof.Machine
end

