-- ==== Sys2Proof/Machine/Morse.lean ====
section
/-! DEFINITION. The Morse family: the duration table (R134), the segment stream (R150), and the meanings of
MORSE.WPM, MSG.WR, MORSE.LOOKUP and MORSE.TX. -/

namespace Sys2Proof.Machine

/-- The units a symbol keeps the key on: 1 for a dot, 3 for a dash (R134). -/
def markUnits : Symbol → Nat
  | .dot => 1
  | .dash => 3

/-- The segments of one symbol: the mark, then one unit off (R134). -/
def symbolSegs (u : Nat) (y : Symbol) : List Segment := [⟨true, markUnits y * u⟩, ⟨false, u⟩]

/-- The segments of one classified character (R134): a pattern's symbols and its 2-unit gap, a space's 4 units,
nothing for an unsupported one. -/
def charSegs (u : Nat) : CharClass → List Segment
  | .unsupported => []
  | .space => [⟨false, 4 * u⟩]
  | .pattern p => p.flatMap (symbolSegs u) ++ [⟨false, 2 * u⟩]

/-- The tail `(OFF, 1000)` (R134). -/
def tailSeg : Segment := ⟨false, Config.tailMs⟩

/-- `segs(m, u)`, the keying trace of a message (R150). Adjacent segments are not merged. -/
def segs (t : MorseTable) (m : List Byte) (u : Nat) : List Segment :=
  m.flatMap (fun c => charSegs u (classifyFolded t c)) ++ [tailSeg]

/-- `WPM <- H` (R140). -/
def writeWpm (wpm : Nat) (s : State) : State := { s with wpm := BitVec.ofNat 16 wpm }

/-- `MSG[idx] <- ch`, valid (R142). -/
def writeMsg (idx : Nat) (ch : Byte) (s : State) : State := { s with msg := memWrite s.msg idx ch }

/-- `LOOKUP <- ...`, with no case folding (R144). -/
def writeLookup (P : Config.Params) (ch : Byte) (s : State) : State :=
  { s with lookup := lookupValue (classify P.morseTable ch) }

/-- The first effects of MORSE.TX once its checks have passed (R146): `DROP_COUNT <- 0`, `KEY <- 0`, `IND <- 0`. -/
def clearForTx (s : State) : State := { s with dropCount := 0#16, key := false, ind := false }

/-- `DROP_COUNT <- n` (R153). -/
def setDropCount (n : Nat) (s : State) : State := { s with dropCount := BitVec.ofNat 16 n }

/-- The whole effect of MORSE.TX (R146, R150, R153). -/
def transmit (P : Config.Params) (len : Nat) (s : State) : State :=
  setDropCount (dropTotal P.morseTable (msgBytes s.msg len))
    (emitAll (segs P.morseTable (msgBytes s.msg len) (unitMs s.wpm)) (clearForTx s))

/-- MORSE.WPM wpm (R140). -/
def execMorseWpm (wpm : Nat) (s : State) : Result :=
  runCommand 0x10#8 (checkMorseWpm wpm) (writeWpm wpm) s

/-- MSG.WR idx, ch (R142) in a build with parameters `P`. -/
def runMsgWr (P : Config.Params) (idx : Nat) (ch : Byte) (s : State) : Result :=
  runCommand 0x11#8 (checkMsgWr P idx) (writeMsg idx ch) s

/-- MSG.WR idx, ch (R142). -/
def execMsgWr (idx : Nat) (ch : Byte) (s : State) : Result := runMsgWr hardware idx ch s

/-- MORSE.LOOKUP ch (R144) in a build with parameters `P`: it makes no check. -/
def runMorseLookup (P : Config.Params) (ch : Byte) (s : State) : Result :=
  runCommand 0x12#8 none (writeLookup P ch) s

/-- MORSE.LOOKUP ch (R144). -/
def execMorseLookup (ch : Byte) (s : State) : Result := runMorseLookup hardware ch s

/-- MORSE.TX len (R146) in a build with parameters `P`. -/
def runMorseTx (P : Config.Params) (len : Nat) (s : State) : Result :=
  runCommand 0x13#8 (checkMorseTx P len s) (transmit P len) s

/-- MORSE.TX len (R146). -/
def execMorseTx (len : Nat) (s : State) : Result := runMorseTx hardware len s

end Sys2Proof.Machine
end

