-- ==== Sys2Proof/Machine/Dispatch.lean ====
section
/-! DEFINITION. The dispatch of an accepted command to its meaning, one arm per constructor of `Instr`. -/

namespace Sys2Proof.Machine

/-- The whole effect of a command once it is accepted, from its checks to its completion or its fault. Whether
the block accepts a command is the step's to say (R23), not a meaning's. -/
def exec (i : Instr) (s : State) : Host.Outcome State Fault Refusal :=
  match i with
  | .ddsInit => Sys2Proof.Machine.execDdsInit s
  | .ftwCalc f => Sys2Proof.Machine.execFtwCalc f s
  | .ftwLoad word => Sys2Proof.Machine.execFtwLoad word s
  | .ftwTune f => Sys2Proof.Machine.execFtwTune f s
  | .morseWpm wpm => Sys2Proof.Machine.execMorseWpm wpm s
  | .msgWr idx ch => Sys2Proof.Machine.execMsgWr idx ch s
  | .morseLookup ch => Sys2Proof.Machine.execMorseLookup ch s
  | .morseTx len => Sys2Proof.Machine.execMorseTx len s
  | .ctrlSet indEn strict => Sys2Proof.Machine.execCtrlSet indEn strict s

end Sys2Proof.Machine
end

