-- ==== Sys2Proof/Machine/Clock.lean ====
section
/-! DEFINITION. The clock-level machine: what one rising edge of `clk` does (R22), with the hidden sequencer of
R45 under its own names. It shares every check, phase, segment and register write with the meanings; what it adds
is when they happen: the check step (R182, R230), the cycles of a calculation and of a phase (R105, R116), the
alignment tick and the countdown of a segment (R151), and a reset or an offered command at any edge (R23, R212). -/

namespace Sys2Proof.Machine

/-- The command in progress, read from `OPW`. -/
def currentInstr (s : State) : Option Instr := (decode s.seq.opw).toOption

/-- Replace the sequencer. -/
def setSeq (q : Sequencer) (s : State) : State := { s with seq := q }

/-- Enter an engine, its counters at 0; the latched command stays. -/
def enter (e : Engine) (s : State) : State := setSeq { Sequencer.idle with eng := e, opw := s.seq.opw } s

/-- One more cycle of the current step. -/
def countCycle (s : State) : State := setSeq { s.seq with cyc := s.seq.cyc + 1 } s

/-! ## The DDS line sequences -/

/-- The word being loaded: FTW.LOAD's operand, or the `FTW` that FTW.TUNE has just written (R32, R114, R115). -/
def serialWord (s : State) : Word :=
  match currentInstr s with
  | some (.ftwLoad w) => w
  | _ => s.ftw

/-- Begin phase `k` of a sequence: its lines change at this edge (R116). -/
def beginPhase (c : LineChange) (k : Nat) (s : State) : State :=
  setSeq { s.seq with ph := k, cyc := 0 } (phase c s)

/-- DDS.INIT begins with I0 (R110). -/
def startInit (s : State) : State := beginPhase (initPhase 0) 0 (enter .initSeq s)

/-- A serial load begins with S0 (R112). -/
def startSerial (s : State) : State := beginPhase (serialPhase (frame (serialWord s)) 0) 0 (enter .ser s)

/-- An edge during DDS.INIT: a phase lasts `P_SER_PHASE_CYCLES` cycles (R116); after I2, `INIT_DONE <- 1`. -/
def initEdge (B : Config.Build) (s : State) : State :=
  if s.seq.cyc + 1 < B.phaseCycles then countCycle s
  else if s.seq.ph < 2 then beginPhase (initPhase (s.seq.ph + 1)) (s.seq.ph + 1) s
  else finish (setInitDone s)

/-- An edge during a serial load (R112, R116): after S121, `DDS_WORD <- w` in the same cycle. -/
def serialEdge (B : Config.Build) (s : State) : State :=
  if s.seq.cyc + 1 < B.phaseCycles then countCycle s
  else if s.seq.ph < 121 then
    beginPhase (serialPhase (frame (serialWord s)) (s.seq.ph + 1)) (s.seq.ph + 1) s
  else finish (setDdsWord (serialWord s) s)

/-- An edge during a calculation (R105, R115): `P_CALC_CYCLES` cycles, then the write; FTW.TUNE shows `FTW` and
`OOR` for one cycle before S0 begins (log entry 9). -/
def calcEdge (B : Config.Build) (s : State) : State :=
  if s.seq.cyc + 1 < B.calcCycles then countCycle s
  else match currentInstr s with
    | some (.ftwCalc f) => finish (writeTuning B.toParams f s)
    | some (.ftwTune f) =>
      if s.seq.cyc + 1 = B.calcCycles then countCycle (writeTuning B.toParams f s) else startSerial s
    | _ => s

/-! ## The keying sequencer -/

/-- `L`, the length of the message being sent. -/
def txLen (s : State) : Nat :=
  match currentInstr s with
  | some (.morseTx len) => len
  | _ => 0

/-- The message being sent. -/
def txBytes (s : State) : List Byte := msgBytes s.msg (txLen s)

/-- The class of the message character at an index, none past the end. -/
def classAt (t : MorseTable) (m : List Byte) (i : Nat) : Option CharClass :=
  (m[i]?).map (classifyFolded t)

/-- The first index at or after `i` whose character is not dropped, or the length (R151: dropped characters take
no tick). -/
def skipDropped (t : MorseTable) (m : List Byte) (i : Nat) : Nat :=
  i + ((m.drop i).takeWhile (fun c => classifyFolded t c == .unsupported)).length

/-- The segment at a position of the sequencer (R134, R155): a symbol's mark, the pause after it, the letter gap,
a space, or the tail. -/
def segmentAt (t : MorseTable) (m : List Byte) (u ci si sub : Nat) : Segment :=
  match classAt t m ci with
  | none => tailSeg
  | some .unsupported => tailSeg
  | some .space => ⟨false, 4 * u⟩
  | some (.pattern p) =>
    match p[si]? with
    | none => ⟨false, 2 * u⟩
    | some y => if sub = 0 then ⟨true, markUnits y * u⟩ else ⟨false, u⟩

/-- Begin the segment at a position (R151 (2), (3)): its level goes to the lines, its length to `REM`. -/
def beginSegment (t : MorseTable) (ci si sub : Nat) (s : State) : State :=
  let g := segmentAt t (txBytes s) (unitMs s.wpm) ci si sub
  setSeq { s.seq with ci := ci, si := si, sub := sub, rem := g.ms, align := false } (emit g s)

/-- Begin the first segment of the next character that is not dropped, or the tail. -/
def beginChar (t : MorseTable) (i : Nat) (s : State) : State := beginSegment t (skipDropped t (txBytes s) i) 0 0 s

/-- The current segment has ended: begin the next one, or complete after the tail (R151 (3), (4)). -/
def nextSegment (t : MorseTable) (s : State) : State :=
  match classAt t (txBytes s) s.seq.ci with
  | none => finish s
  | some (.pattern p) =>
    if s.seq.si < p.length then
      if s.seq.sub = 0 then beginSegment t s.seq.ci s.seq.si 1 s
      else beginSegment t s.seq.ci (s.seq.si + 1) 0 s
    else beginChar t (s.seq.ci + 1) s
  | some _ => beginChar t (s.seq.ci + 1) s

/-- The clock cycles that R222 asks for between two ticks. -/
def tickSpacing (P : Config.Params) : Nat := P.msgDepth + 4

/-- Does a tick count for `REM` (R151)? It does when the ticks keep the spacing of R222; one that comes too close
may be missed, so a segment may last longer than its `ms`, never shorter. -/
def tickCounts (B : Config.Build) (p : Pins) (s : State) : Bool :=
  p.tickMs && (decide (tickSpacing B.toParams ≤ s.tickGap) || B.tickTaken s.cycle)

/-- `DROP_COUNT` while a message is sent (R153): never less than the dropped characters before the current
position, never more than those of the whole message, and in between as the sequencer gets ahead (free). -/
def countDrops (B : Config.Build) (s : State) : State :=
  setDropCount
    (max (dropTotal B.morseTable ((txBytes s).take s.seq.ci))
      (min (dropTotal B.morseTable (txBytes s)) (s.dropCount.toNat + B.dropLead s.cycle)))
    s

/-- MORSE.TX begins (R146, R151 (1)): the keying lines are forced inactive, and the first tick is awaited. -/
def startTx (s : State) : State :=
  setSeq { Sequencer.idle with eng := .morse, align := true, opw := s.seq.opw } (clearForTx s)

/-- An edge during MORSE.TX (R151), before `DROP_COUNT` is brought up to date. -/
def keyEdge (B : Config.Build) (p : Pins) (s : State) : State :=
  if s.seq.align then (if p.tickMs then beginChar B.morseTable 0 s else s)
  else if tickCounts B p s then
    if s.seq.rem ≤ 1 then nextSegment B.morseTable s else setSeq { s.seq with rem := s.seq.rem - 1 } s
  else s

/-- An edge during MORSE.TX (R151, R153). -/
def morseEdge (B : Config.Build) (p : Pins) (s : State) : State :=
  let t := keyEdge B p s
  if t.busy then countDrops B t else t

/-! ## The check step and the edge -/

/-- What an accepted command does when its checks have passed: the commands without a sequence have their effect
and complete; the others start their engine. -/
def startInstr (P : Config.Params) (i : Instr) (s : State) : State :=
  match i with
  | .ddsInit => startInit s
  | .ftwCalc _ => enter .calcWord s
  | .ftwLoad _ => startSerial s
  | .ftwTune _ => enter .calcWord s
  | .morseWpm wpm => finish (writeWpm wpm s)
  | .msgWr idx ch => finish (writeMsg idx ch s)
  | .morseLookup ch => finish (writeLookup P ch s)
  | .morseTx _ => startTx s
  | .ctrlSet indEn strict => finish (writeCtrl indEn strict s)

/-- The end of the check step (R182, R186): decode, then the command's checks, then its start. -/
def endCheck (P : Config.Params) (s : State) : State :=
  match decode s.seq.opw with
  | .error e => takeFault (decodeFaultCode e) (fieldOpc s.seq.opw) s
  | .ok i =>
    match checkInstr P i s with
    | some code => takeFault code (fieldOpc s.seq.opw) s
    | none => startInstr P i s

/-- The check step lasts `K` cycles, `1 <= K <= P_MSG_DEPTH + 2` (R230, spec/93_implementation_defined.md); which
`K` is free. -/
def checkEdge (B : Config.Build) (s : State) : State :=
  if B.msgDepth + 2 ≤ s.seq.cyc + 1 || B.checkEnds s.cycle then endCheck B.toParams s else countCycle s

/-- An edge while a command is in progress. -/
def busyEdge (B : Config.Build) (p : Pins) (s : State) : State :=
  match s.seq.eng with
  | .idle => s
  | .check => checkEdge B s
  | .calcWord => calcEdge B s
  | .initSeq => initEdge B s
  | .ser => serialEdge B s
  | .morse => morseEdge B p s

/-- What an edge does to the registers (R22, R23, R187): reset wins; a command in progress goes on and nothing is
accepted; a ready block accepts an offered word; a halted or idle one does nothing (R183, R194). -/
def blockEdge (B : Config.Build) (p : Pins) (s : State) : State :=
  if p.rst then resetBlock s
  else if s.busy then busyEdge B p s
  else if cmdReady s p.rst && p.cmdValid then accept p.cmdData s
  else s

/-- The model's own counters after an edge: the edge's number and the spacing of the ticks (R222). -/
def countEdge (p : Pins) (s : State) : State :=
  { s with
    cycle := s.cycle + 1
    tickGap := if p.tickMs then 0 else min (s.tickGap + 1) tickGapMax }

/-- One rising edge of `clk` (R22). -/
def clockEdge (B : Config.Build) (p : Pins) (s : State) : State := countEdge p (blockEdge B p s)

/-- A run of edges. -/
def clockRun (B : Config.Build) (ps : List Pins) (s : State) : State := ps.foldl (fun s p => clockEdge B p s) s

/-- The pins of a host that offers nothing. -/
def quietPins (tick : Bool) : Pins := ⟨false, false, 0#64, tick⟩

/-- The pins of a host that offers `w` (R23). -/
def offerPins (w : Cmd) (tick : Bool) : Pins := ⟨false, true, w, tick⟩

/-! ## What the sequencer's states can be -/

/-- The position of the keying sequencer exists in the message: a kept character with a symbol or gap of its own,
or the tail. -/
def positionExists (t : MorseTable) (m : List Byte) (q : Sequencer) : Bool :=
  match classAt t m q.ci with
  | none => q.ci == m.length && q.si == 0 && q.sub == 0
  | some .unsupported => false
  | some .space => q.si == 0 && q.sub == 0
  | some (.pattern p) => decide (q.si < p.length) && decide (q.sub ≤ 1) || q.si == p.length && q.sub == 0

/-- The sequencer agrees with `BUSY` and with the command it runs (R45, R46): no other state is reached from
reset, and the spec describes no behaviour in one. -/
def sequencerConsistent (P : Config.Params) (s : State) : Bool :=
  match s.seq.eng with
  | .idle => !s.busy
  | .check => s.busy
  | .calcWord =>
    s.busy && (match currentInstr s with
      | some (.ftwCalc _) => true
      | some (.ftwTune _) => s.initDone
      | _ => false)
  | .initSeq =>
    s.busy && decide (s.seq.ph ≤ 2) && (match currentInstr s with
      | some .ddsInit => true
      | _ => false)
  | .ser =>
    s.busy && decide (s.seq.ph ≤ 121) && s.initDone && (match currentInstr s with
      | some (.ftwLoad _) => true
      | some (.ftwTune _) => true
      | _ => false)
  | .morse =>
    s.busy && (match currentInstr s with
      | some (.morseTx len) =>
        (checkMorseTx P len s).isNone && (s.seq.align || positionExists P.morseTable (txBytes s) s.seq)
      | _ => false)

end Sys2Proof.Machine
end

