-- ==== Sys2Proof/Machine/Ports.lean ====
section
/-! DEFINITION. The output ports (R29): the register read port (R24, R40), `busy` (R28), the DDS pins with their
output enable (R26) and the keying pins (R27). `cmd_ready` (R23) stands in Flags.lean. All are functions of the
present state; none changes it (R40, R65). -/

namespace Sys2Proof.Machine

/-- `rd_data` (R24, R40). -/
def rdData (s : State) (addr : BitVec 4) : Word :=
  match addr.toNat with
  | 0 => statusWord s
  | 1 => ctrlWord s
  | 2 => s.ftw
  | 3 => s.ddsWord
  | 4 => s.wpm.setWidth 32
  | 5 => BitVec.ofNat 32 (unitMs s.wpm)
  | 6 => s.dropCount.setWidth 32
  | 7 => s.lookup
  | _ => 0x00000000#32

/-- `busy` (R28). -/
def busyOut (s : State) : Bool := s.busy

/-- A DDS pin: its line register's level, or undriven while `dds_oe` = 0 (R26). -/
def ddsPin (s : State) (level : Bool) : Option Bool := if s.lines.oe then some level else none

/-- `dds_oe` (R26). -/
def ddsOe (s : State) : Bool := s.lines.oe

/-- `dds_wclk` (R26). -/
def ddsWclk (s : State) : Option Bool := ddsPin s s.lines.wclk

/-- `dds_fqud` (R26). -/
def ddsFqud (s : State) : Option Bool := ddsPin s s.lines.fqud

/-- `dds_data` (R26). -/
def ddsData (s : State) : Option Bool := ddsPin s s.lines.data

/-- `dds_reset` (R26). -/
def ddsReset (s : State) : Option Bool := ddsPin s s.lines.rstLine

/-- `key_out` (R27), always driven. -/
def keyOut (s : State) : Bool := s.key

/-- `ind_out` (R27), always driven. -/
def indOut (s : State) : Bool := s.ind

end Sys2Proof.Machine
end

