-- ==== Sys2Proof/Machine/Transaction.lean ====
section
/-! DEFINITION. A whole command taken as one transaction, for this hardware and for any build, the small operations
on the script, and one step of a build. R12 and R230 let a model take a command as one transaction; the clock-level
machine takes the same command edge by edge. -/

namespace Sys2Proof.Machine

/-- The whole effect of an accepted command in a build with parameters `P` (R7): `exec` is this at the parameters
of this hardware. -/
def execIn (P : Config.Params) (i : Instr) (s : State) : Result :=
  match i with
  | .ddsInit => execDdsInit s
  | .ftwCalc f => runFtwCalc P f s
  | .ftwLoad word => execFtwLoad word s
  | .ftwTune f => runFtwTune P f s
  | .morseWpm wpm => execMorseWpm wpm s
  | .msgWr idx ch => runMsgWr P idx ch s
  | .morseLookup ch => runMorseLookup P ch s
  | .morseTx len => runMorseTx P len s
  | .ctrlSet indEn strict => execCtrlSet indEn strict s

/-- A whole command as one transaction (R12, R230): acceptance, decode, and the command's meaning `run` or the
decode fault (R83). -/
def transactionBy (run : Instr → State → Result) (w : Cmd) (s : State) : Result :=
  match decode w with
  | .error e => .next (takeFault (decodeFaultCode e) (fieldOpc w) (accept w s))
  | .ok i => run i (accept w s)

/-- Take the first input off the script. -/
def popScript (s : State) : State := { s with script := s.script.tail }

/-- The cycles and ticks that pass in a transaction are not counted: the next tick is then taken as too close,
which only frees more behaviours (log entry 10). -/
def forgetTick (s : State) : State := { s with tickGap := 0 }

/-- Put a word on the command port, before every other input. -/
def offerFirst (w : Cmd) (s : State) : State := { s with script := .command w :: s.script }

/-- One step of the build `B` whose commands have the meaning `run`: it takes the next input of the script. An
`edge` is one clock edge; a `command` is the host offering a word and waiting for its completion. A word offered to
a block that is busy or halted is held (R23, R220): a clock edge passes and the word stays offered. Where no input
is scripted, a clock edge passes with the host quiet. A tick on such an edge is the platform's, and free. -/
def stepBy (run : Instr → State → Result) (B : Config.Build) (s : State) : Result :=
  if sequencerConsistent B.toParams s then
    match s.script with
    | [] => .next (clockEdge B (quietPins (B.platformTick s.cycle)) s)
    | .edge p :: _ => .next (clockEdge B p (popScript s))
    | .command w :: _ =>
      if cmdReady s false then transactionBy run w (forgetTick (popScript s))
      else .next (clockEdge B (offerPins w (B.platformTick s.cycle)) s)
  else .fault .sequencerInconsistent

/-- One step of any build (R7): `step` is this for this hardware. -/
def stepIn (B : Config.Build) (s : State) : Result := stepBy (execIn B.toParams) B s

end Sys2Proof.Machine
end

