-- ==== Sys2Proof/Machine/Step.lean ====
section
/-! DEFINITION. The step of this hardware, and where an instruction stands for the next step to run it. -/

namespace Sys2Proof.Machine

/-- One step of the machine: `exec` gives a command its meaning, and the build is this hardware's. -/
def step (s : State) : Host.Outcome State Fault Refusal := stepBy exec hardwareBuild s

/-- The state with an instruction where the next step takes it from: offered on the command port, before every
input already in the script. -/
def State.withFetchWord (s : State) (nbits w : Nat) : State := offerFirst (tableCmd nbits w) s

end Sys2Proof.Machine
end

