-- ==== Sys2Proof/Machine/Assembler.lean ====
section
/-! DEFINITION. The assembler of R87 and R88: a line of text is cut into tokens, read as one of the syntactic
forms, and turned into command words; an operand outside its range is refused and the line emits nothing. -/

namespace Sys2Proof.Machine

/-- A line of assembly (R87), the raw word, and the pseudo-instructions (R88). -/
inductive AsmLine where
  | ddsInit
  | ftwCalc (f : Nat)
  | ftwLoad (word : Nat)
  | ftwTune (f : Nat)
  | morseWpm (wpm : Nat)
  | msgWr (idx ch : Nat)
  | morseLookup (ch : Nat)
  | morseTx (len : Nat)
  | ctrlSet (indEn strict : Nat)
  /-- `.word64`, emitted unchanged -/
  | word64 (w : Cmd)
  /-- `MORSE.SEND "text"` -/
  | morseSend (text : List Nat)
  /-- `FTW.TUNE.MHZ m` -/
  | ftwTuneMhz (m : Nat)
  /-- `CTRL.COMPAT ind_en` -/
  | ctrlCompat (indEn : Nat)
  /-- `CTRL.CHECKED ind_en` -/
  | ctrlChecked (indEn : Nat)
  /-- `WAIT`: the host polls `BUSY`; no word -/
  | wait
  /-- an empty line or a comment -/
  | blank
deriving DecidableEq, Repr

/-- The word of a command when its operands are in range (R87). -/
def emitInstr (ok : Bool) (i : Instr) : Option (List Cmd) :=
  if ok && i.wellFormed then some [encode i] else none

/-- The MSG.WR words of a text, from index `i` on (R88). -/
def sendWords (i : Nat) : List Nat → List Cmd
  | [] => []
  | c :: cs => encode (.msgWr i (BitVec.ofNat 8 c)) :: sendWords (i + 1) cs

/-- The words of a line, none when the assembler refuses it (R87, R88). The buffer's depth bounds a text. -/
def assemble (P : Config.Params) : AsmLine → Option (List Cmd)
  | .ddsInit => emitInstr true .ddsInit
  | .ftwCalc f => emitInstr true (.ftwCalc f)
  | .ftwLoad word => emitInstr (fitsW word) (.ftwLoad (BitVec.ofNat 32 word))
  | .ftwTune f => emitInstr true (.ftwTune f)
  | .morseWpm wpm => emitInstr true (.morseWpm wpm)
  | .msgWr idx ch => emitInstr (ch < 256) (.msgWr idx (BitVec.ofNat 8 ch))
  | .morseLookup ch => emitInstr (ch < 256) (.morseLookup (BitVec.ofNat 8 ch))
  | .morseTx len => emitInstr true (.morseTx len)
  | .ctrlSet indEn strict => emitInstr (decide (indEn < 2) && decide (strict < 2)) (.ctrlSet (indEn == 1) (strict == 1))
  | .word64 w => some [w]
  | .morseSend text =>
    if text.all (fun c => c < 128) && text.length ≤ P.msgDepth then
      some (sendWords 0 text ++ [encode (.morseTx text.length)])
    else none
  | .ftwTuneMhz m => emitInstr (m * 1000000 ≤ 4294967295) (.ftwTune (m * 1000000))
  | .ctrlCompat indEn => emitInstr (indEn < 2) (.ctrlSet (indEn == 1) false)
  | .ctrlChecked indEn => emitInstr (indEn < 2) (.ctrlSet (indEn == 1) true)
  | .wait => some []
  | .blank => some []

/-! ## The text form -/

/-- A token of a line. -/
inductive Token where
  /-- a mnemonic or a number -/
  | word (cs : List Char)
  /-- a character literal, as its code -/
  | chr (code : Nat)
  /-- a quoted text, as its codes -/
  | text (codes : List Nat)
  | comma
deriving DecidableEq, Repr

/-- Where the lexer stands: in plain text with the word so far (reversed), after an opening apostrophe, after the
character in it, or inside a quoted text (reversed). -/
inductive LexMode where
  | plain (acc : List Char)
  | chrOpen
  | chrBody (c : Char)
  | text (acc : List Char)
deriving DecidableEq, Repr

/-- The apostrophe. -/
def apostrophe : Char := Char.ofNat 39

/-- The double quote. -/
def doubleQuote : Char := Char.ofNat 34

/-- A finished word, if there is one, before the tokens that follow. -/
def flushWord (acc : List Char) (ts : List Token) : List Token :=
  if acc.isEmpty then ts else .word acc.reverse :: ts

/-- The tokens of a line; `;` starts a comment (R87). None for an unclosed literal. DESIGN CHOICE (log entry 21),
since R88 says only that the text is ASCII: the text of MORSE.SEND ends at the first double quote after the opening
one and there is no escape, so a text with a double quote in it cannot be written (its MSG.WR lines can). A character
literal is any one character between two apostrophes, the apostrophe too. -/
def lexLine : LexMode → List Char → Option (List Token)
  | .plain acc, [] => some (flushWord acc [])
  | .plain acc, c :: cs =>
    if c = Char.ofNat 59 then some (flushWord acc [])
    else if c = Char.ofNat 32 || c = Char.ofNat 9 then (lexLine (.plain []) cs).map (flushWord acc)
    else if c = Char.ofNat 44 then (lexLine (.plain []) cs).map (fun ts => flushWord acc (.comma :: ts))
    else if c = apostrophe && acc.isEmpty then lexLine .chrOpen cs
    else if c = doubleQuote && acc.isEmpty then lexLine (.text []) cs
    else lexLine (.plain (c :: acc)) cs
  | .chrOpen, c :: cs => lexLine (.chrBody c) cs
  | .chrBody d, c :: cs => if c = apostrophe then (lexLine (.plain []) cs).map (.chr d.toNat :: ·) else none
  | .text acc, c :: cs =>
    if c = doubleQuote then (lexLine (.plain []) cs).map (.text (acc.reverse.map Char.toNat) :: ·)
    else lexLine (.text (c :: acc)) cs
  | _, [] => none

/-- A decimal digit's value. -/
def decDigit (c : Char) : Option Nat :=
  if 48 ≤ c.toNat && c.toNat ≤ 57 then some (c.toNat - 48) else none

/-- A hexadecimal digit's value. -/
def hexDigit (c : Char) : Option Nat :=
  if 48 ≤ c.toNat && c.toNat ≤ 57 then some (c.toNat - 48)
  else if 65 ≤ c.toNat && c.toNat ≤ 70 then some (c.toNat - 55)
  else if 97 ≤ c.toNat && c.toNat ≤ 102 then some (c.toNat - 87)
  else none

/-- A number in a base, most significant digit first. -/
def digitsIn (base : Nat) (digit : Char → Option Nat) : Nat → List Char → Option Nat
  | n, [] => some n
  | n, c :: cs => (digit c).bind (fun d => digitsIn base digit (base * n + d) cs)

/-- The digits after `0x`, none when the prefix is missing or nothing follows it. -/
def hexBody : List Char → Option (List Char)
  | a :: b :: c :: cs => if a = Char.ofNat 48 && b = Char.ofNat 120 then some (c :: cs) else none
  | _ => none

/-- A number: decimal, or hex with `0x` (R87). -/
def readNumber (cs : List Char) : Option Nat :=
  match hexBody cs with
  | some ds => digitsIn 16 hexDigit 0 ds
  | none => if cs.isEmpty then none else digitsIn 10 decDigit 0 cs

/-- A numeric operand. -/
def readNum : Token → Option Nat
  | .word cs => readNumber cs
  | _ => none

/-- A character operand: a number, or a character literal meaning its ASCII code (R87). -/
def readCh : Token → Option Nat
  | .word cs => readNumber cs
  | .chr code => if code < 128 then some code else none
  | _ => none

/-- The raw word of `.word64`: `0x` and exactly 16 hex digits (R87). -/
def readRaw : Token → Option Cmd
  | .word cs => (hexBody cs).bind (fun ds =>
      if ds.length = 16 then (digitsIn 16 hexDigit 0 ds).map (BitVec.ofNat 64) else none)
  | _ => none

/-- A form with no operand. -/
def form0 (l : AsmLine) : List Token → Option AsmLine
  | [] => some l
  | _ => none

/-- A form with one operand. -/
def form1 (read : Token → Option Nat) (mk : Nat → AsmLine) : List Token → Option AsmLine
  | [t] => (read t).map mk
  | _ => none

/-- A form with two operands and a comma between them. -/
def form2 (read₁ read₂ : Token → Option Nat) (mk : Nat → Nat → AsmLine) : List Token → Option AsmLine
  | [t, .comma, u] => (read₁ t).bind (fun a => (read₂ u).map (mk a))
  | _ => none

/-- The form a mnemonic asks for (R87, R88). -/
def readForm (mnemonic : List Char) (ts : List Token) : Option AsmLine :=
  if mnemonic = "DDS.INIT".toList then form0 .ddsInit ts
  else if mnemonic = "FTW.CALC".toList then form1 readNum .ftwCalc ts
  else if mnemonic = "FTW.LOAD".toList then form1 readNum .ftwLoad ts
  else if mnemonic = "FTW.TUNE".toList then form1 readNum .ftwTune ts
  else if mnemonic = "MORSE.WPM".toList then form1 readNum .morseWpm ts
  else if mnemonic = "MSG.WR".toList then form2 readNum readCh .msgWr ts
  else if mnemonic = "MORSE.LOOKUP".toList then form1 readCh .morseLookup ts
  else if mnemonic = "MORSE.TX".toList then form1 readNum .morseTx ts
  else if mnemonic = "CTRL.SET".toList then form2 readNum readNum .ctrlSet ts
  else if mnemonic = ".word64".toList then
    match ts with
    | [t] => (readRaw t).map .word64
    | _ => none
  else if mnemonic = "MORSE.SEND".toList then
    match ts with
    | [.text codes] => some (.morseSend codes)
    | _ => none
  else if mnemonic = "FTW.TUNE.MHZ".toList then form1 readNum .ftwTuneMhz ts
  else if mnemonic = "CTRL.COMPAT".toList then form1 readNum .ctrlCompat ts
  else if mnemonic = "CTRL.CHECKED".toList then form1 readNum .ctrlChecked ts
  else if mnemonic = "WAIT".toList then form0 .wait ts
  else none

/-- A line of text (R87): one command per line. -/
def readLine (cs : List Char) : Option AsmLine :=
  (lexLine (.plain []) cs).bind (fun ts =>
    match ts with
    | [] => some .blank
    | .word mnemonic :: rest => readForm mnemonic rest
    | _ => none)

/-- The words a line of text emits, none when the assembler refuses it (R87). -/
def assembleText (P : Config.Params) (line : String) : Option (List Cmd) :=
  (readLine line.toList).bind (assemble P)

end Sys2Proof.Machine
end

