-- ==== Sys2Proof/Machine/Observe.lean ====
section
/-! DEFINITION. What an observer makes of the traces of R12: edges and samples of the DDS line trace (R113), and
the waveform, the totals and the pulses of a segment list (R150, R151, R154). -/

namespace Sys2Proof.Machine

/-! ## The DDS line trace -/

/-- The rising edges of a line over a trace, from the level it had before. -/
def risingEdges (line : DdsLines → Bool) : Bool → List DdsLines → Nat
  | _, [] => 0
  | was, l :: ls => (if !was && line l then 1 else 0) + risingEdges line (line l) ls

/-- The levels of one line at the rising edges of another, in order: what a shift register clocked by `clock`
takes in from `data`. -/
def sampleAtRising (clock data : DdsLines → Bool) : Bool → List DdsLines → List Bool
  | _, [] => []
  | was, l :: ls =>
    (if !was && clock l then [data l] else []) ++ sampleAtRising clock data (clock l) ls

/-- The line levels of a sequence of phases, one entry a phase. -/
def linesAfter : List LineChange → DdsLines → List DdsLines
  | [], _ => []
  | c :: cs, l => applyChange c l :: linesAfter cs (applyChange c l)

/-- The bits of a frame, least significant first (R112). -/
def frameBits (fr : Frame) : List Bool := (List.range 40).map (fun i => fr.getLsbD i)

/-- The lines in phase I`k` of DDS.INIT (R110). -/
def initLinesAt (k : Nat) : DdsLines := ⟨true, false, false, false, k == 1⟩

/-- The lines in phase S`k` of a serial load (R112, V5 of spec/95_test_vectors.md). -/
def serialLinesAt (fr : Frame) (k : Nat) : DdsLines :=
  ⟨true, decide (k < 120) && k % 3 == 1, k == 120, fr.getLsbD (min (k / 3) 39), false⟩

/-! ## The keying trace -/

/-- The length of a segment list in ticks. -/
def totalMs (gs : List Segment) : Nat := (gs.map Segment.ms).sum

/-- The time the key is on (R154). -/
def onMs (gs : List Segment) : Nat := ((gs.filter Segment.level).map Segment.ms).sum

/-- The rising edges of the key over a segment list, from the level before it (R154). -/
def keyPulses : Bool → List Segment → Nat
  | _, [] => 0
  | was, g :: gs => (if !was && g.level then 1 else 0) + keyPulses g.level gs

/-- The key's level `n` ticks after the first segment began (R151 (5)); off once the list is over. -/
def levelAt : List Segment → Nat → Bool
  | [], _ => false
  | g :: gs, n => if n < g.ms then g.level else levelAt gs (n - g.ms)

/-- A segment as the keying trace records it, with the indicator that `IND_EN` gives it (R12 (3), R152). -/
def keyEventOf (indEn : Bool) (g : Segment) : KeyEvent := ⟨g.level, g.ms, g.level && indEn⟩

/-- Dots, or dashes, of a message (R154). -/
def countSymbols (t : MorseTable) (y : Symbol) (m : List Byte) : Nat :=
  (m.map (fun c => match classifyFolded t c with
    | .pattern p => p.count y
    | _ => 0)).sum

/-- Supported characters of a message other than spaces (R154). -/
def countPatterns (t : MorseTable) (m : List Byte) : Nat :=
  m.countP (fun c => match classifyFolded t c with
    | .pattern _ => true
    | _ => false)

/-- Spaces of a message (R154). -/
def countSpaces (t : MorseTable) (m : List Byte) : Nat :=
  m.countP (fun c => classifyFolded t c == .space)

/-! ## Runs of the clock -/

/-- No edge of the run is a reset. -/
def noReset (ps : List Pins) : Bool := ps.all (fun p => !p.rst)

/-- No edge of the run offers a command. -/
def noOffer (ps : List Pins) : Bool := ps.all (fun p => !p.cmdValid)

/-- The ticks of a run. -/
def ticksOf (ps : List Pins) : Nat := ps.countP (fun p => p.tickMs)

/-- The ticks of a run that count for `REM` (R151, R222). -/
def countedTicks (B : Config.Build) : List Pins → State → Nat
  | [], _ => 0
  | p :: ps, s => (if tickCounts B p s then 1 else 0) + countedTicks B ps (clockEdge B p s)

/-- The ticks of a run keep a spacing: at least `n` edges without a tick lie before each tick, `gap` of them before
the run. Of the pins alone (R222). -/
def ticksSpaced (n : Nat) : Nat → List Pins → Bool
  | _, [] => true
  | gap, p :: ps => if p.tickMs then decide (n ≤ gap) && ticksSpaced n 0 ps else ticksSpaced n (gap + 1) ps

/-- A state with the clock-level bookkeeping left out: what a transaction and a run of edges are compared by. -/
def forgetTime (s : State) : State := { s with cycle := 0, tickGap := 0 }

end Sys2Proof.Machine
end

