-- ==== Sys2Proof/Safety.lean ====
section
/-! DEFINITION. What claims about the machine are stated with: readiness, the parts of the state that a frame
leaves alone, a command the checks admit, and the invariant of every reachable state. -/

namespace Sys2Proof

open Machine

/-- The block accepts a command: not busy and not halted (R23). -/
def Ready (s : State) : Prop := s.busy = false ∧ s.halted = false

/-- A command passes its checks (R195): on this hardware it will complete, not fault. -/
def Admitted (i : Instr) (s : State) : Prop := checkInstr hardware i s = none

/-- The registers of the FTW path: `FTW`, `DDS_WORD`, `OOR`, `INIT_DONE`, the DDS lines and their trace. -/
def SameFtwSide (s t : State) : Prop :=
  t.ftw = s.ftw ∧ t.ddsWord = s.ddsWord ∧ t.oor = s.oor ∧ t.initDone = s.initDone ∧ t.lines = s.lines ∧
    t.ddsTrace = s.ddsTrace

/-- The registers of the Morse path other than MSG: `WPM`, `DROP_COUNT`, `LOOKUP`, the keying lines and their
trace. -/
def SameMorseRegs (s t : State) : Prop :=
  t.wpm = s.wpm ∧ t.dropCount = s.dropCount ∧ t.lookup = s.lookup ∧ t.key = s.key ∧ t.ind = s.ind ∧
    t.keyTrace = s.keyTrace

/-- Every byte of the message buffer reads as before, valid bits included. -/
def SameMsg (s t : State) : Prop := ∀ a, memRead t.msg a = memRead s.msg a

/-- `CTRL`. -/
def SameCtrl (s t : State) : Prop := t.indEn = s.indEn ∧ t.strict = s.strict

/-- The fault record and `HALTED`. -/
def SameFaultRecord (s t : State) : Prop :=
  t.halted = s.halted ∧ t.faultCode = s.faultCode ∧ t.faultOpc = s.faultOpc

/-- The inputs to come and the model's counters. -/
def SameBook (s t : State) : Prop := t.script = s.script ∧ t.cycle = s.cycle ∧ t.tickGap = s.tickGap

/-- The layout of `LOOKUP` (R37): `CLASS` 0 or 1 with everything above 0, or `CLASS` 2 with a length of 1 to 5
and no pattern bit past it. `CLASS` 3 and the reserved bits are never 1. -/
def LookupLegal (w : Word) : Prop :=
  w = 0#32 ∨ w = 1#32 ∨
    ∃ len pat : Nat, 1 ≤ len ∧ len ≤ 5 ∧ pat < 2 ^ len ∧ w = BitVec.ofNat 32 (2 + 4 * len + 32 * pat)

/-- The DDS lines that the sequencer's position gives (R26, R110, R112): in a sequence, the phase's levels;
otherwise all four 0, driven once DDS.INIT has completed. -/
def linesExpected (s : State) : DdsLines :=
  match s.seq.eng with
  | .initSeq => initLinesAt s.seq.ph
  | .ser => serialLinesAt (frame (serialWord s)) s.seq.ph
  | _ => ⟨s.initDone, false, false, false, false⟩

/-- The segment the keying sequencer is in. -/
def currentSegment (P : Config.Params) (s : State) : Segment :=
  segmentAt P.morseTable (txBytes s) (unitMs s.wpm) s.seq.ci s.seq.si s.seq.sub

/-- The key's level that the sequencer's position gives (R38, R152): off but in the mark of a symbol. -/
def keyExpected (P : Config.Params) (s : State) : Bool :=
  decide (s.seq.eng = .morse) && !s.seq.align && (currentSegment P s).level

/-- The invariant of a build with parameters `P`: what holds at reset and is kept by every step. -/
structure MachineInv (P : Config.Params) (s : State) : Prop where
  /-- the sequencer agrees with `BUSY` and with the command it runs (R45, R46) -/
  consistent : sequencerConsistent P s = true
  /-- MSG lists rising indices below `P_MSG_DEPTH` (R60) -/
  msgWf : Memory.wf P.msgDepth s.msg = true
  /-- `WPM` is 0 or legal (R34) -/
  wpmLegal : s.wpm.toNat ≤ Config.wpmMax
  /-- `LOOKUP` has the layout of R37 -/
  lookupLegal : LookupLegal s.lookup
  /-- `DROP_COUNT` never exceeds the buffer (R36) -/
  dropLegal : s.dropCount.toNat ≤ P.msgDepth
  /-- a halted block runs nothing (R183) -/
  haltedIdle : s.halted = true → s.busy = false
  /-- a fault code is recorded exactly while halted, and an opcode only then (R30) -/
  faultRecord : (s.halted = true ↔ s.faultCode ≠ .none) ∧ (s.halted = false → s.faultOpc = 0x00#8)
  /-- during DDS.INIT `INIT_DONE` is still 0 (R110) -/
  initOnce : s.seq.eng = .initSeq → s.initDone = false
  /-- the DDS lines are where the sequencer's position puts them (R26, R38, R110, R112, R183) -/
  linesAt : s.lines = linesExpected s
  /-- the key is where the sequencer's position puts it (R38, R152) -/
  keyAt : s.key = keyExpected P s
  /-- `ind_out = key_out AND IND_EN` at every cycle (R152) -/
  indAt : s.ind = (s.key && s.indEn)
  /-- in a segment, at least one and at most all of its milliseconds are left (R151) -/
  remAt : s.seq.eng = .morse → s.seq.align = false → 1 ≤ s.seq.rem ∧ s.seq.rem ≤ (currentSegment P s).ms
  /-- `DROP_COUNT` lies between the dropped characters already passed and those of the message (R153) -/
  dropAt : s.seq.eng = .morse →
    dropTotal P.morseTable ((txBytes s).take s.seq.ci) ≤ s.dropCount.toNat ∧
      s.dropCount.toNat ≤ dropTotal P.morseTable (txBytes s)
  /-- the tick counter is saturated (R222) -/
  gapLegal : s.tickGap ≤ tickGapMax

end Sys2Proof
end

