-- ==== Sys2Proof/Certificates/Slice0/Obligations.lean ====
section
/-! DEFINITION. The statements about the model, each a proposition to be proved: encoding, the result of every
command, its faults, its frame, the arithmetic and the traces, and the rules of the whole machine. -/

open Sys2Proof Sys2Proof.Machine

/-! ## Encoding -/

/-- The decoder gives back every well-formed command from its word (R80 to R83). -/
def Obligations.DecodeOfEncode : Prop :=
  ∀ i : Instr, i.wellFormed = true → decode (encode i) = .ok i

/-- A word that decodes is the word of the well-formed command it decodes to, so no two words are one command and
no bit is ignored (R83, R85). -/
def Obligations.EncodeOfDecode : Prop :=
  ∀ (c : Cmd) (i : Instr), decode c = .ok i → i.wellFormed = true ∧ encode i = c

/-- The two decode faults, exactly (R82 to R85): a word is an illegal opcode when its top byte is none of the nine,
and breaks a reserved field when its opcode is legal and a field that the table of R82 marks "zero" is not. -/
def Obligations.DecodeFaultsExactly : Prop :=
  ∀ c : Cmd,
    (decode c = .error .illegalOpcode ↔
      fieldOpc c ∉ [0x01#8, 0x02#8, 0x03#8, 0x04#8, 0x10#8, 0x11#8, 0x12#8, 0x13#8, 0x20#8]) ∧
    (decode c = .error .reservedField ↔
      (fieldOpc c = 0x01#8 ∧ (fieldB c ≠ 0#8 ∨ fieldH c ≠ 0#16 ∨ fieldW c ≠ 0#32)) ∨
      (fieldOpc c ∈ [0x02#8, 0x03#8, 0x04#8] ∧ (fieldB c ≠ 0#8 ∨ fieldH c ≠ 0#16)) ∨
      (fieldOpc c ∈ [0x10#8, 0x13#8] ∧ (fieldB c ≠ 0#8 ∨ fieldW c ≠ 0#32)) ∨
      (fieldOpc c = 0x11#8 ∧ fieldW c ≠ 0#32) ∨
      (fieldOpc c = 0x12#8 ∧ (fieldH c ≠ 0#16 ∨ fieldW c ≠ 0#32)) ∨
      (fieldOpc c = 0x20#8 ∧ ((fieldB c).extractLsb' 2 6 ≠ 0#6 ∨ fieldH c ≠ 0#16 ∨ fieldW c ≠ 0#32)))

/-- The nine example words of R89 are the words of their commands, and decode to them. -/
def Obligations.ExampleWords : Prop :=
  ∀ e ∈ ([ (.ddsInit, 0x0100000000000000#64), (.ftwCalc 14095600, 0x0200000000D714F0#64),
           (.ftwLoad 0x1CDE2768#32, 0x030000001CDE2768#64), (.ftwTune 14095600, 0x0400000000D714F0#64),
           (.morseWpm 20, 0x1000001400000000#64), (.msgWr 1 0x4F#8, 0x114F000100000000#64),
           (.morseLookup 0x41#8, 0x1241000000000000#64), (.morseTx 3, 0x1300000300000000#64),
           (.ctrlSet true true, 0x2003000000000000#64) ] : List (Instr × Cmd)),
    encode e.1 = e.2 ∧ decode e.2 = .ok e.1

/-- What the assembler emits, for every depth of the message buffer (R87, R88): what a line that is not a raw word
emits are command words; every core form emits exactly the word of its command when its operands are in range and
is refused otherwise; a raw word is emitted unchanged; `WAIT` emits nothing; the pseudo-instructions expand as R88
says. -/
def Obligations.AssemblerEmitsCommands : Prop :=
  ∀ P : Config.Params, P.msgDepth ≤ 65535 →
  (∀ (l : AsmLine) (ws : List Cmd), (∀ w, l ≠ .word64 w) → assemble P l = some ws →
    ∀ w ∈ ws, ∃ i : Instr, decode w = .ok i) ∧
  (∀ w : Cmd, assemble P (.word64 w) = some [w]) ∧ assemble P .wait = some [] ∧
  assemble P .ddsInit = some [encode .ddsInit] ∧
  (∀ f : Nat, assemble P (.ftwCalc f) = if f ≤ 4294967295 then some [encode (.ftwCalc f)] else none) ∧
  (∀ w : Nat, assemble P (.ftwLoad w) =
    if w ≤ 0xFFFFFFFF then some [encode (.ftwLoad (BitVec.ofNat 32 w))] else none) ∧
  (∀ f : Nat, assemble P (.ftwTune f) = if f ≤ 4294967295 then some [encode (.ftwTune f)] else none) ∧
  (∀ n : Nat, assemble P (.morseWpm n) = if n ≤ 65535 then some [encode (.morseWpm n)] else none) ∧
  (∀ idx ch : Nat, assemble P (.msgWr idx ch) =
    if idx ≤ 65535 ∧ ch ≤ 255 then some [encode (.msgWr idx (BitVec.ofNat 8 ch))] else none) ∧
  (∀ ch : Nat, assemble P (.morseLookup ch) =
    if ch ≤ 255 then some [encode (.morseLookup (BitVec.ofNat 8 ch))] else none) ∧
  (∀ len : Nat, assemble P (.morseTx len) = if len ≤ 65535 then some [encode (.morseTx len)] else none) ∧
  (∀ a b : Nat, assemble P (.ctrlSet a b) =
    if a ≤ 1 ∧ b ≤ 1 then some [encode (.ctrlSet (a == 1) (b == 1))] else none) ∧
  (∀ a : Nat, assemble P (.ctrlCompat a) = assemble P (.ctrlSet a 0)) ∧
  (∀ a : Nat, assemble P (.ctrlChecked a) = assemble P (.ctrlSet a 1)) ∧
  (∀ m : Nat, assemble P (.ftwTuneMhz m) =
    if m ≤ 4294 then some [encode (.ftwTune (m * 1000000))] else none) ∧
  (∀ text : List Nat, (∀ c ∈ text, c < 128) → text.length ≤ P.msgDepth →
    ∃ ws : List Cmd, assemble P (.morseSend text) = some (ws ++ [encode (.morseTx text.length)]) ∧
      ws.length = text.length ∧
      ∀ (k : Nat) (h : k < text.length), ws[k]? = some (encode (.msgWr k (BitVec.ofNat 8 text[k])))) ∧
  (∀ text : List Nat, ((∃ c ∈ text, 128 ≤ c) ∨ P.msgDepth < text.length) → assemble P (.morseSend text) = none)

/-! ## The step and the command port -/

/-- A step of a ready block runs the command its offered word decodes to: `exec` of it, after the acceptance
(`BUSY`, `OPW`, the acceptance event), with the word taken off the script and the tick spacing forgotten (the
script, the spacing, and that the sequencer holds the whole word with every counter 0, are the model's choice, log
entries 1, 10 and 14). -/
def Obligations.StepRunsDecodedCommand : Prop :=
  ∀ (s : State) (w : Cmd) (rest : List HostInput) (i : Instr),
    MachineInv hardware s → Ready s → s.script = .command w :: rest → decode w = .ok i →
    step s = exec i { s with
      busy := true, seq := { Sequencer.idle with eng := .check, opw := w },
      cmdTrace := s.cmdTrace ++ [.accepted w], script := rest, tickGap := 0 }

/-- A step of a ready block that is offered a word that is no command takes the decode fault and has no other
effect (R83 to R85, R181, R183; the script, the tick spacing and the form of the quiescent sequencer are the model's choice,
log entries 1, 10 and 14). -/
def Obligations.StepFaultsOtherWords : Prop :=
  ∀ (s : State) (w : Cmd) (rest : List HostInput) (e : DecodeFault),
    MachineInv hardware s → Ready s → s.script = .command w :: rest → decode w = .error e →
    step s = .next { s with
      halted := true, busy := false, seq := Sequencer.idle, faultOpc := fieldOpc w,
      faultCode := (match e with
        | .illegalOpcode => .illegalOpcode
        | .reservedField => .reservedField),
      cmdTrace := s.cmdTrace ++ [.accepted w, .faulted (match e with
        | .illegalOpcode => .illegalOpcode
        | .reservedField => .reservedField) (fieldOpc w)],
      script := rest, tickGap := 0 }

/-- A clock edge accepts the offered word exactly when `cmd_valid` = 1, `cmd_ready` = 1 and `rst` = 0, and then
only `BUSY` and the sequencer change (R23). That the sequencer then holds the whole word with every counter 0 is the
model's choice (log entry 14). -/
def Obligations.AcceptanceEdge : Prop :=
  ∀ (B : Config.Build) (p : Pins) (s : State), MachineInv B.toParams s →
    ((p.cmdValid = true ∧ s.busy = false ∧ s.halted = false ∧ p.rst = false) →
      forgetTime (clockEdge B p s) = forgetTime { s with
        busy := true, seq := { Sequencer.idle with eng := .check, opw := p.cmdData },
        cmdTrace := s.cmdTrace ++ [.accepted p.cmdData] }) ∧
    (¬ (p.cmdValid = true ∧ s.busy = false ∧ s.halted = false ∧ p.rst = false) →
      ∀ w : Cmd, (clockEdge B p s).cmdTrace ≠ s.cmdTrace ++ [.accepted w])

/-- What a clock edge ignores: while a command runs, what the host offers changes nothing (R23), and while the block
is idle or halted a tick has no effect (R194); only the model's own counters move. -/
def Obligations.EdgesIgnored : Prop :=
  ∀ (B : Config.Build) (s : State) (valid : Bool) (w : Cmd) (tick : Bool),
    (s.busy = true → clockEdge B ⟨false, valid, w, tick⟩ s = clockEdge B (quietPins tick) s) ∧
    (s.busy = false → forgetTime (clockEdge B (quietPins tick) s) = forgetTime s)

/-! ## The result of every command

Beside what the rules give, each of these statements says that the hidden sequencer is back in its reset form and
that the traces of R12 gain the command's events: the model's choice (log entries 4, 5 and 14). -/

/-- DDS.INIT: three phases, then `INIT_DONE` (R110, V4). -/
def Obligations.DdsInitCompletes : Prop :=
  ∀ s : State, s.initDone = false →
    exec .ddsInit s = .next { s with
      initDone := true, lines := ⟨true, false, false, false, false⟩,
      ddsTrace := s.ddsTrace ++ [⟨true, false, false, false, false⟩, ⟨true, false, false, false, true⟩,
        ⟨true, false, false, false, false⟩],
      busy := false, seq := Sequencer.idle, cmdTrace := s.cmdTrace ++ [.completed] }

/-- FTW.CALC: `FTW` and `OOR`, nothing else (R100, R102, R105). -/
def Obligations.FtwCalcCompletes : Prop :=
  ∀ (f : Nat) (s : State), (s.strict = true → 2 * f < 125000000) →
    exec (.ftwCalc f) s = .next { s with
      ftw := BitVec.ofNat 32 (f * 2 ^ 32 / 125000000), oor := decide (125000000 ≤ 2 * f),
      busy := false, seq := Sequencer.idle, cmdTrace := s.cmdTrace ++ [.completed] }

/-- FTW.LOAD: the 122 phases with their line levels, then `DDS_WORD` (R112, R114, V5). -/
def Obligations.FtwLoadCompletes : Prop :=
  ∀ (w : Word) (s : State) (d : Bool), s.initDone = true → s.lines = ⟨true, false, false, d, false⟩ →
    exec (.ftwLoad w) s = .next { s with
      ddsWord := w, lines := ⟨true, false, false, false, false⟩,
      ddsTrace := s.ddsTrace ++ (List.range 122).map (fun k => serialLinesAt (w.setWidth 40) k),
      busy := false, seq := Sequencer.idle, cmdTrace := s.cmdTrace ++ [.completed] }

/-- FTW.TUNE: the tuning word of the frequency is computed and loaded (R115). -/
def Obligations.FtwTuneCompletes : Prop :=
  ∀ (f : Nat) (s : State) (d : Bool), s.initDone = true → (s.strict = true → 2 * f < 125000000) →
    s.lines = ⟨true, false, false, d, false⟩ →
    exec (.ftwTune f) s = .next { s with
      ftw := BitVec.ofNat 32 (f * 2 ^ 32 / 125000000), oor := decide (125000000 ≤ 2 * f),
      ddsWord := BitVec.ofNat 32 (f * 2 ^ 32 / 125000000), lines := ⟨true, false, false, false, false⟩,
      ddsTrace := s.ddsTrace ++ (List.range 122).map (fun k =>
        serialLinesAt ((BitVec.ofNat 32 (f * 2 ^ 32 / 125000000)).setWidth 40) k),
      busy := false, seq := Sequencer.idle, cmdTrace := s.cmdTrace ++ [.completed] }

/-- FTW.TUNE leaves what FTW.CALC followed by FTW.LOAD of its result leaves, but for the one completion event more
of the two commands (R115). -/
def Obligations.TuneIsCalcThenLoad : Prop :=
  ∀ (f : Nat) (s t u : State), Admitted (.ftwTune f) s → exec (.ftwCalc f) s = .next t →
    exec (.ftwLoad t.ftw) t = .next u →
    exec (.ftwTune f) s = .next { u with cmdTrace := s.cmdTrace ++ [.completed] }

/-- MORSE.WPM: the speed, and with it the unit (R35, R133, R140). -/
def Obligations.MorseWpmCompletes : Prop :=
  ∀ (n : Nat) (s : State), 1 ≤ n → n ≤ 1200 →
    exec (.morseWpm n) s = .next { s with
      wpm := BitVec.ofNat 16 n, busy := false, seq := Sequencer.idle, cmdTrace := s.cmdTrace ++ [.completed] } ∧
    unitMs (BitVec.ofNat 16 n) = 1200 / n ∧ 1 ≤ 1200 / n

/-- MSG.WR: the one entry holds the character and is valid, every other entry reads as before, and no other
register changes (R10, R142). -/
def Obligations.MsgWrCompletes : Prop :=
  ∀ (idx : Nat) (ch : Byte) (s : State), idx < 256 →
    ∃ t : State, exec (.msgWr idx ch) s = .next t ∧ memRead t.msg idx = some ch ∧
      (∀ a, a ≠ idx → memRead t.msg a = memRead s.msg a) ∧
      t = { s with
        msg := t.msg, busy := false, seq := Sequencer.idle, cmdTrace := s.cmdTrace ++ [.completed] }

/-- MORSE.LOOKUP: `LOOKUP` holds 0, 1 or the pattern's class, length and bits, with no case folding (R132, R144). The
patterns are the spec's own presumed default (log entry 15). -/
def Obligations.MorseLookupCompletes : Prop :=
  ∀ (ch : Byte) (s : State),
    exec (.morseLookup ch) s = .next { s with
      lookup := (if ch = 0x20#8 then 1#32
        else match patternOf defaultMorseTable ch with
          | none => 0#32
          | some p => BitVec.ofNat 32 (2 + 4 * p.length + 32 * patBits p)),
      busy := false, seq := Sequencer.idle, cmdTrace := s.cmdTrace ++ [.completed] }

/-- MORSE.TX: the message's segments, each with its indicator level, then both lines off, and the count of dropped
characters (R146, R150, R152, R153). The patterns are the spec's own presumed default (log entry 15). -/
def Obligations.MorseTxCompletes : Prop :=
  ∀ (m : List Byte) (s : State), m.length ≤ 256 → s.wpm ≠ 0#16 →
    (∀ (i : Nat) (h : i < m.length), memRead s.msg i = some m[i]) →
    exec (.morseTx m.length) s = .next { s with
      dropCount := BitVec.ofNat 16 (dropTotal defaultMorseTable m), key := false, ind := false,
      keyTrace := s.keyTrace ++ (segs defaultMorseTable m (1200 / s.wpm.toNat)).map (keyEventOf s.indEn),
      busy := false, seq := Sequencer.idle, cmdTrace := s.cmdTrace ++ [.completed] }

/-- CTRL.SET: the two control bits, nothing else (R170). -/
def Obligations.CtrlSetCompletes : Prop :=
  ∀ (indEn strict : Bool) (s : State),
    exec (.ctrlSet indEn strict) s = .next { s with
      indEn := indEn, strict := strict, busy := false, seq := Sequencer.idle,
      cmdTrace := s.cmdTrace ++ [.completed] }

/-! ## Faults -/

/-- Which fault each command reports, in the order of R186, for every value of the parameters (R7, R180, R195). -/
def Obligations.FaultsInOrder : Prop :=
  ∀ (P : Config.Params) (s : State),
    (checkInstr P .ddsInit s = if s.initDone then some .reinit else none) ∧
    (∀ f, checkInstr P (.ftwCalc f) s =
      if s.strict = true ∧ P.refclkHz ≤ 2 * f then some .freqRange else none) ∧
    (∀ w, checkInstr P (.ftwLoad w) s = if s.initDone then none else some .notInit) ∧
    (∀ f, checkInstr P (.ftwTune f) s =
      if s.initDone = false then some .notInit
      else if s.strict = true ∧ P.refclkHz ≤ 2 * f then some .freqRange else none) ∧
    (∀ n, checkInstr P (.morseWpm n) s = if n = 0 ∨ 1200 < n then some .wpmRange else none) ∧
    (∀ idx ch, checkInstr P (.msgWr idx ch) s = if P.msgDepth ≤ idx then some .msgRange else none) ∧
    (∀ ch, checkInstr P (.morseLookup ch) s = none) ∧
    (∀ len, checkInstr P (.morseTx len) s =
      if s.wpm = 0#16 then some .wpmRange
      else if P.msgDepth < len then some .msgRange
      else if ∃ i < len, memRead s.msg i = none then some .msgUnwritten else none) ∧
    (∀ indEn strict, checkInstr P (.ctrlSet indEn strict) s = none)

/-- A command that fails a check changes the fault record and nothing else: code, opcode byte, `HALTED`, `BUSY`
(R181 to R183). -/
def Obligations.FaultsArePrecise : Prop :=
  ∀ (i : Instr) (s : State) (code : FaultCode), checkInstr hardware i s = some code →
    exec i s = .next { s with
      faultCode := code, faultOpc := fieldOpc (encode i), halted := true, busy := false,
      seq := Sequencer.idle, cmdTrace := s.cmdTrace ++ [.faulted code (fieldOpc (encode i))] }

/-- A halted block stays as it is until a reset edge: no step changes a register, whatever is offered, and the
fault record is never overwritten (R183, R184). -/
def Obligations.HaltedUntilReset : Prop :=
  ∀ s t : State, MachineInv hardware s → s.halted = true → step s = .next t →
    (∀ (p : Pins) (rest : List HostInput), s.script = .edge p :: rest → p.rst = false) →
    forgetTime { t with script := s.script } = forgetTime s

/-! ## Frames -/

/-- A command of the FTW family, completed or faulted, leaves the Morse path, every byte of MSG, `CTRL` and the
inputs to come alone (R3, R105, R110, R114, R115). -/
def Obligations.FtwFamilyFrame : Prop :=
  ∀ (i : Instr) (s t : State),
    (i = .ddsInit ∨ (∃ f, i = .ftwCalc f) ∨ (∃ w, i = .ftwLoad w) ∨ (∃ f, i = .ftwTune f)) →
    exec i s = .next t →
    SameMorseRegs s t ∧ SameMsg s t ∧ SameCtrl s t ∧ SameBook s t

/-- Within the FTW path: FTW.CALC touches no line, FTW.LOAD keeps `FTW` and `OOR`, DDS.INIT keeps the words, and
only DDS.INIT touches `INIT_DONE`, setting it. No fault record changes unless a check failed (R39, R105, R110,
R114, R115). -/
def Obligations.FtwRegistersFrame : Prop :=
  ∀ s t : State,
    (exec .ddsInit s = .next t → t.ftw = s.ftw ∧ t.ddsWord = s.ddsWord ∧ t.oor = s.oor ∧
      (s.initDone = true → t.initDone = true) ∧ (Admitted .ddsInit s → SameFaultRecord s t)) ∧
    (∀ f, exec (.ftwCalc f) s = .next t → t.ddsWord = s.ddsWord ∧ t.initDone = s.initDone ∧ t.lines = s.lines ∧
      t.ddsTrace = s.ddsTrace ∧ (Admitted (.ftwCalc f) s → SameFaultRecord s t)) ∧
    (∀ w, exec (.ftwLoad w) s = .next t → t.ftw = s.ftw ∧ t.oor = s.oor ∧ t.initDone = s.initDone ∧
      t.lines.oe = s.lines.oe ∧ t.lines.rstLine = s.lines.rstLine ∧
      (Admitted (.ftwLoad w) s → SameFaultRecord s t)) ∧
    (∀ f, exec (.ftwTune f) s = .next t → t.initDone = s.initDone ∧ t.lines.oe = s.lines.oe ∧
      t.lines.rstLine = s.lines.rstLine ∧ (Admitted (.ftwTune f) s → SameFaultRecord s t))

/-- CTRL.SET leaves both paths, every byte of MSG and the fault record alone, `OOR` among them (R170). A command of
the Morse family, completed or faulted, leaves the FTW path, `CTRL` and the inputs to come alone;
MORSE.WPM, MORSE.LOOKUP and MORSE.TX leave every byte of MSG as it was, and MSG.WR every byte but the one at its
index (R3, R140, R142, R144, R146). -/
def Obligations.MorseAndControlFrame : Prop :=
  ∀ s t : State,
    (∀ indEn strict, exec (.ctrlSet indEn strict) s = .next t → SameFtwSide s t ∧ SameMorseRegs s t ∧
      SameMsg s t ∧ SameFaultRecord s t ∧ SameBook s t) ∧
    (∀ n, exec (.morseWpm n) s = .next t → SameFtwSide s t ∧ SameCtrl s t ∧ SameBook s t ∧ SameMsg s t ∧
      t.dropCount = s.dropCount ∧ t.lookup = s.lookup ∧ t.key = s.key ∧ t.ind = s.ind ∧
      t.keyTrace = s.keyTrace ∧ (Admitted (.morseWpm n) s → SameFaultRecord s t)) ∧
    (∀ idx ch, exec (.msgWr idx ch) s = .next t → SameFtwSide s t ∧ SameCtrl s t ∧ SameBook s t ∧
      SameMorseRegs s t ∧ (∀ a, a ≠ idx → memRead t.msg a = memRead s.msg a) ∧
      (Admitted (.msgWr idx ch) s → SameFaultRecord s t)) ∧
    (∀ ch, exec (.morseLookup ch) s = .next t → SameFtwSide s t ∧ SameCtrl s t ∧ SameBook s t ∧ SameMsg s t ∧
      t.wpm = s.wpm ∧ t.dropCount = s.dropCount ∧ t.key = s.key ∧ t.ind = s.ind ∧ t.keyTrace = s.keyTrace ∧
      SameFaultRecord s t) ∧
    (∀ len, exec (.morseTx len) s = .next t → SameFtwSide s t ∧ SameCtrl s t ∧ SameBook s t ∧ SameMsg s t ∧
      t.wpm = s.wpm ∧ t.lookup = s.lookup ∧ (Admitted (.morseTx len) s → SameFaultRecord s t))

/-- The two paths are independent (R3): a command of the FTW family and one of the Morse family, both admitted,
have the same effect in either order. -/
def Obligations.PathsAreIndependent : Prop :=
  ∀ (i j : Instr) (s t₁ t₂ u₁ u₂ : State),
    (i = .ddsInit ∨ (∃ f, i = .ftwCalc f) ∨ (∃ w, i = .ftwLoad w) ∨ (∃ f, i = .ftwTune f)) →
    ((∃ n, j = .morseWpm n) ∨ (∃ idx ch, j = .msgWr idx ch) ∨ (∃ ch, j = .morseLookup ch) ∨
      (∃ len, j = .morseTx len)) →
    Admitted i s → Admitted j s →
    exec i s = .next t₁ → exec j t₁ = .next u₁ → exec j s = .next t₂ → exec i t₂ = .next u₂ →
    u₁ = u₂

/-! ## Tuning-word arithmetic -/

/-- At or above the clock the word is the alias's (R102, first fact). -/
def Obligations.TuningWordAliases : Prop :=
  ∀ f C : Nat, 1 ≤ C → C < 2 ^ 32 → f < 2 ^ 32 → tuningWord f C = tuningWord (f % C) C

/-- Half the clock (R102, conflict C3 of spec/90_conflicts.md): 2^31 exactly for an even clock, 2^31 - ceil(2^31/C)
and 2^31 + floor(2^31/C) beside it for an odd one, and never below 2^31 from there up to the clock. -/
def Obligations.TuningWordAtHalfClock : Prop :=
  ∀ C : Nat, 1 ≤ C → C < 2 ^ 32 →
    (C % 2 = 0 → tuningWord (C / 2) C = 0x80000000#32) ∧
    (C % 2 = 1 → 1 < C → (tuningWord ((C - 1) / 2) C).toNat = 2 ^ 31 - (2 ^ 31 + C - 1) / C ∧
      (tuningWord ((C + 1) / 2) C).toNat = 2 ^ 31 + 2 ^ 31 / C) ∧
    (∀ f, C ≤ 2 * f → f < C → 2 ^ 31 ≤ (tuningWord f C).toNat)

/-- The tuning error (R117): in range, the selected frequency `w * C / 2^32` is at most the request and less than
one word step below it. -/
def Obligations.TuningErrorBelowOneStep : Prop :=
  ∀ f C : Nat, 1 ≤ C → C < 2 ^ 32 → 2 * f < C →
    (tuningWord f C).toNat * C ≤ f * 2 ^ 32 ∧ f * 2 ^ 32 < ((tuningWord f C).toNat + 1) * C

/-- The tuning word a command leaves depends on the frequency alone (R103). -/
def Obligations.TuningIsPure : Prop :=
  ∀ (f : Nat) (s s' t t' : State), Admitted (.ftwCalc f) s → Admitted (.ftwTune f) s' →
    exec (.ftwCalc f) s = .next t → exec (.ftwTune f) s' = .next t' →
    t.ftw = t'.ftw ∧ t.oor = t'.oor

/-! ## The serial load -/

/-- The frame has the tuning word in bits 31:0 and zero in bits 39:32 (R111). -/
def Obligations.FrameLayout : Prop :=
  ∀ w : Word, (frame w).extractLsb' 0 32 = w ∧ (frame w).extractLsb' 32 8 = 0x00#8 ∧ frame w = w.setWidth 40

/-- The four trace properties of a load (R113): 40 write-clock rises and 1 latch rise, the latch after the last
write-clock fall; `DATA` is bit `k` before, in and after the `k`-th write-clock pulse; the bits at the rises are the
frame's, least significant first; no other line changes. -/
def Obligations.SerialTraceProperties : Prop :=
  ∀ (w : Word) (d : Bool),
    let tr := linesAfter (serialPhases w) ⟨true, false, false, d, false⟩
    tr.length = 122 ∧
    risingEdges DdsLines.wclk false tr = 40 ∧ risingEdges DdsLines.fqud false tr = 1 ∧
    risingEdges DdsLines.fqud false (tr.take 120) = 0 ∧ (tr.drop 119).all (fun l => !l.wclk) = true ∧
    (∀ k < 40, ∀ j < 3, (tr[3 * k + j]?).map DdsLines.data = some ((frame w).getLsbD k)) ∧
    sampleAtRising DdsLines.wclk DdsLines.data false tr = frameBits (frame w) ∧
    tr.all (fun l => l.oe && !l.rstLine) = true

/-- A reset before phase S120 aborts a load with no latch pulse sent (R66, R212): from the start of a load, until
the latch phase, the line trace gains no entry with `FQUD` = 1. -/
def Obligations.AbortBeforeLatch : Prop :=
  ∀ (B : Config.Build) (s : State) (ps : List Pins), MachineInv B.toParams s → s.seq.eng = .ser → s.seq.ph = 0 →
    noReset ps = true → noOffer ps = true → (clockRun B ps s).seq.eng = .ser → (clockRun B ps s).seq.ph < 120 →
    ∀ p : Pins, p.rst = true →
      ∃ more : List DdsLines, (clockEdge B p (clockRun B ps s)).ddsTrace = s.ddsTrace ++ more ∧
        (∀ l ∈ more, l.fqud = false) ∧
        (clockEdge B p (clockRun B ps s)).lines = ⟨false, false, false, false, false⟩ ∧
        (clockEdge B p (clockRun B ps s)).halted = false

/-! ## Morse characters and segments -/

/-- Case folding (R130): exactly `a`-`z` move, down by 0x20, and folding twice is folding once. -/
def Obligations.FoldMapsLowerCase : Prop :=
  ∀ c : Byte, (0x61 ≤ c.toNat ∧ c.toNat ≤ 0x7A → (fold c).toNat = c.toNat - 0x20) ∧
    (¬ (0x61 ≤ c.toNat ∧ c.toNat ≤ 0x7A) → fold c = c) ∧ fold (fold c) = fold c

/-- The layout of `LOOKUP` for every legal dictionary (R37, R144): the class, the length and one bit a symbol. -/
def Obligations.LookupLayout : Prop :=
  ∀ (t : MorseTable) (c : Byte) (p : Pattern), legalTable t = true → classify t c = .pattern p →
    let v := lookupValue (classify t c)
    v.extractLsb' 0 2 = 2#2 ∧ (v.extractLsb' 2 3).toNat = p.length ∧ v.extractLsb' 10 22 = 0#22 ∧
    ∀ j < 5, v.getLsbD (5 + j) = decide (p[j]? = some .dash)

/-- The 36 keys are classified as patterns, space as space, every other code as unsupported, for every legal
dictionary (R131, R132). -/
def Obligations.ClassifyByKey : Prop :=
  ∀ (t : MorseTable) (c : Byte), legalTable t = true →
    (c = 0x20#8 ↔ classify t c = .space) ∧
    ((0x30 ≤ c.toNat ∧ c.toNat ≤ 0x39 ∨ 0x41 ≤ c.toNat ∧ c.toNat ≤ 0x5A) ↔ ∃ p, classify t c = .pattern p)

/-- Totals of a message (R154): the key-on time, the total time and the pulses, from the counts of dots, dashes,
supported characters and spaces. -/
def Obligations.SegmentTotals : Prop :=
  ∀ (t : MorseTable) (m : List Byte) (u : Nat),
    let d := countSymbols t .dot m
    let h := countSymbols t .dash m
    onMs (segs t m u) = (d + 3 * h) * u ∧
    totalMs (segs t m u) =
      (d + 3 * h) * u + (d + h) * u + 2 * countPatterns t m * u + 4 * countSpaces t m * u + 1000 ∧
    keyPulses false (segs t m u) = d + h

/-- Unsupported characters take no time and lower case is keyed like upper case (R130, R134, R135). -/
def Obligations.DroppedCharactersTakeNoTime : Prop :=
  ∀ (t : MorseTable) (m : List Byte) (u : Nat),
    segs t (m.filter (fun c => classifyFolded t c != .unsupported)) u = segs t m u ∧
    segs t (m.map fold) u = segs t m u

/-- The gap between two supported characters with `k` spaces between them is `3u + 4ku` of key off (R135). -/
def Obligations.GapBetweenLetters : Prop :=
  ∀ (t : MorseTable) (a b : Byte) (m : List Byte) (k u : Nat) (p q : Pattern),
    classifyFolded t a = .pattern p → classifyFolded t b = .pattern q → p ≠ [] → q ≠ [] →
    ∃ (before : List Segment) (x y : Nat) (gap after : List Segment),
      segs t (a :: (List.replicate k 0x20#8 ++ b :: m)) u =
        before ++ ⟨true, x⟩ :: (gap ++ ⟨true, y⟩ :: after) ∧
      keyPulses false (before ++ [⟨true, x⟩]) = p.length ∧
      gap.all (fun g => !g.level) = true ∧ totalMs gap = 3 * u + 4 * k * u

/-- The unit (R133): `1200 div WPM`, between 1 and 1200 for every legal speed, with the rule's eight rows. -/
def Obligations.UnitTable : Prop :=
  (∀ n : Nat, 1 ≤ n → n ≤ 1200 →
    unitMs (BitVec.ofNat 16 n) = 1200 / n ∧ 1 ≤ unitMs (BitVec.ofNat 16 n) ∧
      unitMs (BitVec.ofNat 16 n) ≤ 1200) ∧
  ∀ e ∈ [(1, 1200), (5, 240), (7, 171), (12, 100), (13, 92), (20, 60), (25, 48), (1200, 1)],
    unitMs (BitVec.ofNat 16 e.1) = e.2

/-! ## The message buffer -/

/-- A write to MSG is read back, and every other entry reads as before (R10). -/
def Obligations.MemReadAfterWrite : Prop :=
  ∀ (m : Memory) (i a : Nat) (v : Byte),
    memRead (memWrite m i v) a = if a = i then some v else memRead m a

/-- A write inside the buffer keeps the canonical form, and two buffers in that form that read alike are equal
(R60). -/
def Obligations.MemoryIsCanonical : Prop :=
  ∀ depth : Nat,
  (∀ (m : Memory) (i : Nat) (v : Byte), Memory.wf depth m = true → i < depth →
    Memory.wf depth (memWrite m i v) = true) ∧
  (∀ m n : Memory, Memory.wf depth m = true → Memory.wf depth n = true → (∀ a, memRead m a = memRead n a) → m = n)

/-! ## Reset and the read port -/

/-- Reset edges, one or more, give every register its reset value, from any state and in the middle of any command
(R41, R210, R212); the model's own traces and script stay, and `ALIGN` and `OPW`, of which R41 is silent, are
false and 0 (the model's choice, log entries 4, 14 and 18). -/
def Obligations.ResetSetsEveryRegister : Prop :=
  ∀ (B : Config.Build) (p : Pins) (ps : List Pins) (s : State), (p :: ps).all Pins.rst = true →
    forgetTime (clockRun B (p :: ps) s) = forgetTime { s with
      busy := false, initDone := false, oor := false, halted := false, faultCode := .none, faultOpc := 0x00#8,
      indEn := false, strict := false, ftw := 0x00000000#32, ddsWord := 0x00000000#32, wpm := 0#16,
      dropCount := 0#16, lookup := 0x00000000#32, msg := [], lines := ⟨false, false, false, false, false⟩,
      key := false, ind := false, seq := ⟨.idle, 0, 0, 0, 0, 0, 0, false, 0#64⟩ }

/-- After a reset edge every read address reads 0, the block is ready, the DDS lines are undriven and the keying
lines are off (V13 of spec/95_test_vectors.md, R40, R41, R211). -/
def Obligations.PortsAfterReset : Prop :=
  ∀ (B : Config.Build) (p : Pins) (s : State), p.rst = true →
    (∀ a : BitVec 4, rdData (clockEdge B p s) a = 0x00000000#32) ∧
    cmdReady (clockEdge B p s) false = true ∧ busyOut (clockEdge B p s) = false ∧
    ddsOe (clockEdge B p s) = false ∧ keyOut (clockEdge B p s) = false ∧ indOut (clockEdge B p s) = false

/-- The read map (R40), with the fields of `STATUS` and `CTRL` at their bits (R30, R31) and the fault
codes at their numbers (R180). -/
def Obligations.ReadMap : Prop :=
  ∀ s : State,
    ((rdData s 0).getLsbD 0 = s.busy ∧ (rdData s 0).getLsbD 1 = s.initDone ∧ (rdData s 0).getLsbD 2 = s.oor ∧
      (rdData s 0).getLsbD 3 = s.halted ∧ (rdData s 0).extractLsb' 4 4 = (match s.faultCode with
        | .none => 0#4
        | .illegalOpcode => 1#4
        | .reservedField => 2#4
        | .notInit => 3#4
        | .reinit => 4#4
        | .freqRange => 5#4
        | .wpmRange => 6#4
        | .msgRange => 7#4
        | .msgUnwritten => 8#4) ∧
      (rdData s 0).extractLsb' 8 8 = s.faultOpc ∧ (rdData s 0).extractLsb' 16 16 = 0#16) ∧
    ((rdData s 1).getLsbD 0 = s.indEn ∧ (rdData s 1).getLsbD 1 = s.strict ∧
      (rdData s 1).extractLsb' 2 30 = 0#30) ∧
    rdData s 2 = s.ftw ∧ rdData s 3 = s.ddsWord ∧ (rdData s 4).toNat = s.wpm.toNat ∧
    (rdData s 5).toNat = (if s.wpm.toNat = 0 then 0 else 1200 / s.wpm.toNat) ∧
    (rdData s 6).toNat = s.dropCount.toNat ∧ rdData s 7 = s.lookup ∧
    ∀ a : BitVec 4, 8 ≤ a.toNat → rdData s a = 0x00000000#32

/-- The DDS pins are driven exactly while `dds_oe` = 1, each at its register's level; the keying pins always are
(R26, R27). -/
def Obligations.PinsFollowRegisters : Prop :=
  ∀ s : State,
    (s.lines.oe = false → ddsWclk s = none ∧ ddsFqud s = none ∧ ddsData s = none ∧ ddsReset s = none) ∧
    (s.lines.oe = true → ddsWclk s = some s.lines.wclk ∧ ddsFqud s = some s.lines.fqud ∧
      ddsData s = some s.lines.data ∧ ddsReset s = some s.lines.rstLine) ∧
    ddsOe s = s.lines.oe ∧ keyOut s = s.key ∧ indOut s = s.ind ∧ busyOut s = s.busy

/-! ## The whole machine -/

/-- The invariant holds at reset, whatever the parameters. -/
def Obligations.InvAtReset : Prop := ∀ P : Config.Params, MachineInv P State.reset

/-- Every step keeps the invariant, of this hardware and of every legal build (R7): the sequencer agrees with the
command it runs, MSG keeps its form, the DDS and keying lines are where the sequencer puts them, the indicator is
the key under `IND_EN`, the fault record agrees with `HALTED` (R26, R30, R38, R45, R60, R152, R183). -/
def Obligations.StepKeepsInv : Prop :=
  (∀ s t : State, MachineInv hardware s → step s = .next t → MachineInv hardware t) ∧
  ∀ (B : Config.Build) (s t : State), B.Legal → MachineInv B.toParams s → stepIn B s = .next t →
    MachineInv B.toParams t

/-- From the invariant no step ends in a fault or a refusal: the machine always goes on. (The one Lean fault is
the model's choice, log entry 17; this says that it is never met.) -/
def Obligations.StepNeverStops : Prop :=
  ∀ s : State, MachineInv hardware s → ∃ t : State, step s = .next t

/-- `INIT_DONE` is cleared only by reset (R39): a step that clears it was a reset edge. -/
def Obligations.InitDoneClearedOnlyByReset : Prop :=
  ∀ s t : State, MachineInv hardware s → step s = .next t → s.initDone = true → t.initDone = false →
    ∃ (p : Pins) (rest : List HostInput), s.script = .edge p :: rest ∧ p.rst = true

/-- The indicator (R152): after every step `ind_out = key_out AND IND_EN`, so it is off while `IND_EN` = 0, and
outside a transmission both keying lines are off. -/
def Obligations.IndicatorFollowsKey : Prop :=
  ∀ s t : State, MachineInv hardware s → step s = .next t →
    indOut t = (keyOut t && t.indEn) ∧ (t.indEn = false → indOut t = false) ∧
    (t.seq.eng ≠ .morse → keyOut t = false ∧ indOut t = false)

/-- Whenever the block is not busy, after a completed or a faulted command as after reset, the write clock, the
latch, the data line and the reset line are low, and the lines are driven exactly when DDS.INIT has completed
(R38, R112, R183). -/
def Obligations.IdleLinesAreLow : Prop :=
  ∀ s t : State, MachineInv hardware s → step s = .next t → t.busy = false →
    t.lines = ⟨t.initDone, false, false, false, false⟩

/-! ## The clock-level machine -/

/-- The clock-level machine runs a command as the transaction does (R12, R64, R230): from a ready state, a word is
offered; whatever the durations, the free values and the ticks, once `BUSY` is 0 again the registers and the traces
are those of the transaction, in every legal build (log entry 3). -/
def Obligations.ClockRunIsTransaction : Prop :=
  ∀ (B : Config.Build) (s : State) (w : Cmd) (tick : Bool) (ps : List Pins), B.Legal → MachineInv B.toParams s →
    Ready s → noReset ps = true → noOffer ps = true →
    (clockRun B ps (clockEdge B (offerPins w tick) s)).busy = false →
    ∃ t : State, transactionBy (execIn B.toParams) w s = .next t ∧
      forgetTime (clockRun B ps (clockEdge B (offerPins w tick) s)) = forgetTime t

/-- While a command runs, the read port still shows the results of the commands before it (R64, R68, R220): only
`DROP_COUNT`, and the `FTW` and `OOR` of an FTW.TUNE, move before completion. -/
def Obligations.ResultsWaitForCompletion : Prop :=
  ∀ (B : Config.Build) (s : State) (w : Cmd) (tick : Bool) (ps : List Pins), MachineInv B.toParams s → Ready s →
    noReset ps = true → noOffer ps = true →
    (clockRun B ps (clockEdge B (offerPins w tick) s)).busy = true →
    let t := clockRun B ps (clockEdge B (offerPins w tick) s)
    t.ddsWord = s.ddsWord ∧ t.lookup = s.lookup ∧ t.wpm = s.wpm ∧ t.msg = s.msg ∧ t.initDone = s.initDone ∧
      SameCtrl s t ∧ SameFaultRecord s t ∧
      ((∀ f, decode w ≠ .ok (.ftwTune f)) → t.ftw = s.ftw ∧ t.oor = s.oor)

/-- A command other than MORSE.TX completes within its cycles: at most `P_MSG_DEPTH + 2` for the check (the cap of
spec/93_implementation_defined.md section 2, since R230's is for MORSE.TX; that the check may take any length up to it
is the model's choice, log entry 6), `P_CALC_CYCLES` and one more (the one more is the model's choice, log entry 9),
and 122 phases (R116, R230). -/
def Obligations.CommandsComplete : Prop :=
  ∀ (B : Config.Build) (s : State) (w : Cmd) (tick : Bool) (ps : List Pins), B.Legal →
    MachineInv B.toParams s → Ready s → noReset ps = true → noOffer ps = true →
    (∀ len, decode w ≠ .ok (.morseTx len)) →
    (B.msgDepth + 2) + (B.calcCycles + 1) + 122 * B.phaseCycles ≤ ps.length →
    (clockRun B ps (clockEdge B (offerPins w tick) s)).busy = false

/-- A serial load holds `BUSY` for at least its cycles (R116, R230): that of FTW.LOAD the check, at least one cycle,
and 122 phases; that of an FTW.TUNE that passes its checks `P_CALC_CYCLES` more. -/
def Obligations.LoadTakesItsPhases : Prop :=
  ∀ (B : Config.Build) (s : State) (tick : Bool) (ps : List Pins), B.Legal → MachineInv B.toParams s → Ready s →
    noReset ps = true →
    (∀ word : Word, s.initDone = true → ps.length < 1 + 122 * B.phaseCycles →
      (clockRun B ps (clockEdge B (offerPins (encode (.ftwLoad word)) tick) s)).busy = true) ∧
    (∀ f : Nat, f < 2 ^ 32 → checkInstr B.toParams (.ftwTune f) s = none →
      ps.length < 1 + B.calcCycles + 122 * B.phaseCycles →
      (clockRun B ps (clockEdge B (offerPins (encode (.ftwTune f)) tick) s)).busy = true)

/-- The key follows the message's timeline (R151, R152, R231): after the alignment tick and `n` counted ticks the
key is at the level of the segment list at `n`, the indicator too when enabled, and the command is over once the
list is, for every dictionary. -/
def Obligations.KeyFollowsTimeline : Prop :=
  ∀ (B : Config.Build) (s : State) (p : Pins) (ps : List Pins), MachineInv B.toParams s → s.seq.eng = .morse →
    s.seq.align = true → p.tickMs = true → p.rst = false → noReset ps = true → noOffer ps = true →
    let gs := segs B.morseTable (txBytes s) (unitMs s.wpm)
    let n := countedTicks B ps (clockEdge B p s)
    let t := clockRun B ps (clockEdge B p s)
    t.key = levelAt gs n ∧ t.ind = (levelAt gs n && s.indEn) ∧ (t.busy = true ↔ n < totalMs gs)

/-- Ticks that keep the spacing of R222 all count, and others may be missed but never count twice, so no segment
is shorter than its milliseconds (R151, R222). The spacing is said of the pins: at least `P_MSG_DEPTH + 4` edges
without a tick between two ticks, and before the first one as many, with the edges that `tickGap` says have passed
before the run (the field is the model's own, log entry 10). -/
def Obligations.TicksCountOnce : Prop :=
  ∀ (B : Config.Build) (s : State) (ps : List Pins),
    countedTicks B ps s ≤ ticksOf ps ∧
    (B.msgDepth ≤ 65535 → ticksSpaced (B.msgDepth + 4) s.tickGap ps = true → countedTicks B ps s = ticksOf ps)

/-- A tick in the cycle a command is accepted, or while its check step runs, is not its alignment tick: until a tick
comes after the checks the key stays off and no segment begins (R151 (1), R187). `qs` are edges of the check step, with
any ticks; the first edge of `rs` may be the one that ends it, and may tick as well (log entry 16: the check ends at
that edge); after it no tick comes. Once the longest check step is over, after `P_MSG_DEPTH + 2` edges, the sequencer
does wait for that tick (R45, R230). -/
def Obligations.AlignmentWaitsForTick : Prop :=
  ∀ (B : Config.Build) (s : State) (w : Cmd) (len : Nat) (tick : Bool) (qs rs : List Pins),
    MachineInv B.toParams s → Ready s → decode w = .ok (.morseTx len) →
    checkInstr B.toParams (.morseTx len) s = none → noReset (qs ++ rs) = true →
    (∀ n ≤ qs.length, (clockRun B (qs.take n) (clockEdge B (offerPins w tick) s)).seq.eng = .check) →
    ticksOf (rs.drop 1) = 0 →
    let t := clockRun B (qs ++ rs) (clockEdge B (offerPins w tick) s)
    t.busy = true ∧ t.key = false ∧ t.ind = false ∧ t.keyTrace = s.keyTrace ∧
      (B.msgDepth + 2 ≤ (qs ++ rs).length → t.seq.eng = .morse ∧ t.seq.align = true)

/-! ## The build parameters -/

/-- The meanings take the parameters of R7 as arguments: `exec` is the command at this hardware's values, and for
every clock, depth and dictionary the four commands that depend on one have the effect their rules give with it (R100,
R102, R105, R115, R142, R144, R146, R150, R153), or fault precisely (R181 to R183). -/
def Obligations.CommandsTakeParameters : Prop :=
  ∀ (P : Config.Params) (s : State),
    let done (t : State) : State :=
      { t with busy := false, seq := Sequencer.idle, cmdTrace := t.cmdTrace ++ [.completed] }
    (∀ i, exec i s = execIn hardware i s) ∧
    (∀ i code, checkInstr P i s = some code →
      execIn P i s = .next { s with
        faultCode := code, faultOpc := fieldOpc (encode i), halted := true, busy := false,
        seq := Sequencer.idle, cmdTrace := s.cmdTrace ++ [.faulted code (fieldOpc (encode i))] }) ∧
    (∀ f, (s.strict = true → 2 * f < P.refclkHz) →
      execIn P (.ftwCalc f) s = .next (done { s with
        ftw := tuningWord f P.refclkHz, oor := decide (P.refclkHz ≤ 2 * f) })) ∧
    (∀ f d, s.initDone = true → (s.strict = true → 2 * f < P.refclkHz) →
      s.lines = ⟨true, false, false, d, false⟩ →
      execIn P (.ftwTune f) s = .next (done { s with
        ftw := tuningWord f P.refclkHz, oor := decide (P.refclkHz ≤ 2 * f),
        ddsWord := tuningWord f P.refclkHz, lines := ⟨true, false, false, false, false⟩,
        ddsTrace := s.ddsTrace ++
          (List.range 122).map (fun k => serialLinesAt ((tuningWord f P.refclkHz).setWidth 40) k) })) ∧
    (∀ idx ch, idx < P.msgDepth →
      execIn P (.msgWr idx ch) s = .next (done { s with msg := memWrite s.msg idx ch })) ∧
    (∀ ch, execIn P (.morseLookup ch) s =
      .next (done { s with lookup := lookupValue (classify P.morseTable ch) })) ∧
    (∀ m : List Byte, m.length ≤ P.msgDepth → s.wpm ≠ 0#16 →
      (∀ (k : Nat) (h : k < m.length), memRead s.msg k = some m[k]) →
      execIn P (.morseTx m.length) s = .next (done { s with
        dropCount := BitVec.ofNat 16 (dropTotal P.morseTable m), key := false, ind := false,
        keyTrace := s.keyTrace ++ (segs P.morseTable m (1200 / s.wpm.toNat)).map (keyEventOf s.indEn) }))
end

