-- ==== Sys2Proof/Laws/State.lean ====
section
/-! SUPPORT. One lemma per field of the state per update, each true by rfl, so that no later proof unfolds a
record update. -/

namespace Sys2Proof.Machine

/-! ## `phase` -/

@[simp] theorem phase_busy (c : LineChange) (s : State) : (phase c s).busy = s.busy := rfl
@[simp] theorem phase_initDone (c : LineChange) (s : State) : (phase c s).initDone = s.initDone := rfl
@[simp] theorem phase_oor (c : LineChange) (s : State) : (phase c s).oor = s.oor := rfl
@[simp] theorem phase_halted (c : LineChange) (s : State) : (phase c s).halted = s.halted := rfl
@[simp] theorem phase_faultCode (c : LineChange) (s : State) : (phase c s).faultCode = s.faultCode := rfl
@[simp] theorem phase_faultOpc (c : LineChange) (s : State) : (phase c s).faultOpc = s.faultOpc := rfl
@[simp] theorem phase_indEn (c : LineChange) (s : State) : (phase c s).indEn = s.indEn := rfl
@[simp] theorem phase_strict (c : LineChange) (s : State) : (phase c s).strict = s.strict := rfl
@[simp] theorem phase_ftw (c : LineChange) (s : State) : (phase c s).ftw = s.ftw := rfl
@[simp] theorem phase_ddsWord (c : LineChange) (s : State) : (phase c s).ddsWord = s.ddsWord := rfl
@[simp] theorem phase_wpm (c : LineChange) (s : State) : (phase c s).wpm = s.wpm := rfl
@[simp] theorem phase_dropCount (c : LineChange) (s : State) : (phase c s).dropCount = s.dropCount := rfl
@[simp] theorem phase_lookup (c : LineChange) (s : State) : (phase c s).lookup = s.lookup := rfl
@[simp] theorem phase_msg (c : LineChange) (s : State) : (phase c s).msg = s.msg := rfl
@[simp] theorem phase_lines (c : LineChange) (s : State) : (phase c s).lines = applyChange c s.lines := rfl
@[simp] theorem phase_key (c : LineChange) (s : State) : (phase c s).key = s.key := rfl
@[simp] theorem phase_ind (c : LineChange) (s : State) : (phase c s).ind = s.ind := rfl
@[simp] theorem phase_seq (c : LineChange) (s : State) : (phase c s).seq = s.seq := rfl
@[simp] theorem phase_ddsTrace (c : LineChange) (s : State) : (phase c s).ddsTrace =
    s.ddsTrace ++ [applyChange c s.lines] := rfl
@[simp] theorem phase_keyTrace (c : LineChange) (s : State) : (phase c s).keyTrace = s.keyTrace := rfl
@[simp] theorem phase_cmdTrace (c : LineChange) (s : State) : (phase c s).cmdTrace = s.cmdTrace := rfl
@[simp] theorem phase_script (c : LineChange) (s : State) : (phase c s).script = s.script := rfl
@[simp] theorem phase_cycle (c : LineChange) (s : State) : (phase c s).cycle = s.cycle := rfl
@[simp] theorem phase_tickGap (c : LineChange) (s : State) : (phase c s).tickGap = s.tickGap := rfl

/-! ## `emit` -/

@[simp] theorem emit_busy (g : Segment) (s : State) : (emit g s).busy = s.busy := rfl
@[simp] theorem emit_initDone (g : Segment) (s : State) : (emit g s).initDone = s.initDone := rfl
@[simp] theorem emit_oor (g : Segment) (s : State) : (emit g s).oor = s.oor := rfl
@[simp] theorem emit_halted (g : Segment) (s : State) : (emit g s).halted = s.halted := rfl
@[simp] theorem emit_faultCode (g : Segment) (s : State) : (emit g s).faultCode = s.faultCode := rfl
@[simp] theorem emit_faultOpc (g : Segment) (s : State) : (emit g s).faultOpc = s.faultOpc := rfl
@[simp] theorem emit_indEn (g : Segment) (s : State) : (emit g s).indEn = s.indEn := rfl
@[simp] theorem emit_strict (g : Segment) (s : State) : (emit g s).strict = s.strict := rfl
@[simp] theorem emit_ftw (g : Segment) (s : State) : (emit g s).ftw = s.ftw := rfl
@[simp] theorem emit_ddsWord (g : Segment) (s : State) : (emit g s).ddsWord = s.ddsWord := rfl
@[simp] theorem emit_wpm (g : Segment) (s : State) : (emit g s).wpm = s.wpm := rfl
@[simp] theorem emit_dropCount (g : Segment) (s : State) : (emit g s).dropCount = s.dropCount := rfl
@[simp] theorem emit_lookup (g : Segment) (s : State) : (emit g s).lookup = s.lookup := rfl
@[simp] theorem emit_msg (g : Segment) (s : State) : (emit g s).msg = s.msg := rfl
@[simp] theorem emit_lines (g : Segment) (s : State) : (emit g s).lines = s.lines := rfl
@[simp] theorem emit_key (g : Segment) (s : State) : (emit g s).key = g.level := rfl
@[simp] theorem emit_ind (g : Segment) (s : State) : (emit g s).ind = (g.level && s.indEn) := rfl
@[simp] theorem emit_seq (g : Segment) (s : State) : (emit g s).seq = s.seq := rfl
@[simp] theorem emit_ddsTrace (g : Segment) (s : State) : (emit g s).ddsTrace = s.ddsTrace := rfl
@[simp] theorem emit_keyTrace (g : Segment) (s : State) : (emit g s).keyTrace =
    s.keyTrace ++ [⟨g.level, g.ms, g.level && s.indEn⟩] := rfl
@[simp] theorem emit_cmdTrace (g : Segment) (s : State) : (emit g s).cmdTrace = s.cmdTrace := rfl
@[simp] theorem emit_script (g : Segment) (s : State) : (emit g s).script = s.script := rfl
@[simp] theorem emit_cycle (g : Segment) (s : State) : (emit g s).cycle = s.cycle := rfl
@[simp] theorem emit_tickGap (g : Segment) (s : State) : (emit g s).tickGap = s.tickGap := rfl

/-! ## `accept` -/

@[simp] theorem accept_busy (w : Cmd) (s : State) : (accept w s).busy = true := rfl
@[simp] theorem accept_initDone (w : Cmd) (s : State) : (accept w s).initDone = s.initDone := rfl
@[simp] theorem accept_oor (w : Cmd) (s : State) : (accept w s).oor = s.oor := rfl
@[simp] theorem accept_halted (w : Cmd) (s : State) : (accept w s).halted = s.halted := rfl
@[simp] theorem accept_faultCode (w : Cmd) (s : State) : (accept w s).faultCode = s.faultCode := rfl
@[simp] theorem accept_faultOpc (w : Cmd) (s : State) : (accept w s).faultOpc = s.faultOpc := rfl
@[simp] theorem accept_indEn (w : Cmd) (s : State) : (accept w s).indEn = s.indEn := rfl
@[simp] theorem accept_strict (w : Cmd) (s : State) : (accept w s).strict = s.strict := rfl
@[simp] theorem accept_ftw (w : Cmd) (s : State) : (accept w s).ftw = s.ftw := rfl
@[simp] theorem accept_ddsWord (w : Cmd) (s : State) : (accept w s).ddsWord = s.ddsWord := rfl
@[simp] theorem accept_wpm (w : Cmd) (s : State) : (accept w s).wpm = s.wpm := rfl
@[simp] theorem accept_dropCount (w : Cmd) (s : State) : (accept w s).dropCount = s.dropCount := rfl
@[simp] theorem accept_lookup (w : Cmd) (s : State) : (accept w s).lookup = s.lookup := rfl
@[simp] theorem accept_msg (w : Cmd) (s : State) : (accept w s).msg = s.msg := rfl
@[simp] theorem accept_lines (w : Cmd) (s : State) : (accept w s).lines = s.lines := rfl
@[simp] theorem accept_key (w : Cmd) (s : State) : (accept w s).key = s.key := rfl
@[simp] theorem accept_ind (w : Cmd) (s : State) : (accept w s).ind = s.ind := rfl
@[simp] theorem accept_seq (w : Cmd) (s : State) : (accept w s).seq = ⟨.check, 0, 0, 0, 0, 0, 0, false, w⟩ := rfl
@[simp] theorem accept_ddsTrace (w : Cmd) (s : State) : (accept w s).ddsTrace = s.ddsTrace := rfl
@[simp] theorem accept_keyTrace (w : Cmd) (s : State) : (accept w s).keyTrace = s.keyTrace := rfl
@[simp] theorem accept_cmdTrace (w : Cmd) (s : State) : (accept w s).cmdTrace = s.cmdTrace ++ [.accepted w] := rfl
@[simp] theorem accept_script (w : Cmd) (s : State) : (accept w s).script = s.script := rfl
@[simp] theorem accept_cycle (w : Cmd) (s : State) : (accept w s).cycle = s.cycle := rfl
@[simp] theorem accept_tickGap (w : Cmd) (s : State) : (accept w s).tickGap = s.tickGap := rfl

/-! ## `finish` -/

@[simp] theorem finish_busy (s : State) : (finish s).busy = false := rfl
@[simp] theorem finish_initDone (s : State) : (finish s).initDone = s.initDone := rfl
@[simp] theorem finish_oor (s : State) : (finish s).oor = s.oor := rfl
@[simp] theorem finish_halted (s : State) : (finish s).halted = s.halted := rfl
@[simp] theorem finish_faultCode (s : State) : (finish s).faultCode = s.faultCode := rfl
@[simp] theorem finish_faultOpc (s : State) : (finish s).faultOpc = s.faultOpc := rfl
@[simp] theorem finish_indEn (s : State) : (finish s).indEn = s.indEn := rfl
@[simp] theorem finish_strict (s : State) : (finish s).strict = s.strict := rfl
@[simp] theorem finish_ftw (s : State) : (finish s).ftw = s.ftw := rfl
@[simp] theorem finish_ddsWord (s : State) : (finish s).ddsWord = s.ddsWord := rfl
@[simp] theorem finish_wpm (s : State) : (finish s).wpm = s.wpm := rfl
@[simp] theorem finish_dropCount (s : State) : (finish s).dropCount = s.dropCount := rfl
@[simp] theorem finish_lookup (s : State) : (finish s).lookup = s.lookup := rfl
@[simp] theorem finish_msg (s : State) : (finish s).msg = s.msg := rfl
@[simp] theorem finish_lines (s : State) : (finish s).lines = s.lines := rfl
@[simp] theorem finish_key (s : State) : (finish s).key = s.key := rfl
@[simp] theorem finish_ind (s : State) : (finish s).ind = s.ind := rfl
@[simp] theorem finish_seq (s : State) : (finish s).seq = Sequencer.idle := rfl
@[simp] theorem finish_ddsTrace (s : State) : (finish s).ddsTrace = s.ddsTrace := rfl
@[simp] theorem finish_keyTrace (s : State) : (finish s).keyTrace = s.keyTrace := rfl
@[simp] theorem finish_cmdTrace (s : State) : (finish s).cmdTrace = s.cmdTrace ++ [.completed] := rfl
@[simp] theorem finish_script (s : State) : (finish s).script = s.script := rfl
@[simp] theorem finish_cycle (s : State) : (finish s).cycle = s.cycle := rfl
@[simp] theorem finish_tickGap (s : State) : (finish s).tickGap = s.tickGap := rfl

/-! ## `takeFault` -/

@[simp] theorem takeFault_busy (code : FaultCode) (opc : Byte) (s : State) : (takeFault code opc s).busy =
    false := rfl
@[simp] theorem takeFault_initDone (code : FaultCode) (opc : Byte) (s : State) : (takeFault code opc s).initDone =
    s.initDone := rfl
@[simp] theorem takeFault_oor (code : FaultCode) (opc : Byte) (s : State) : (takeFault code opc s).oor =
    s.oor := rfl
@[simp] theorem takeFault_halted (code : FaultCode) (opc : Byte) (s : State) : (takeFault code opc s).halted =
    true := rfl
@[simp] theorem takeFault_faultCode (code : FaultCode) (opc : Byte) (s : State) : (takeFault code opc s).faultCode =
    code := rfl
@[simp] theorem takeFault_faultOpc (code : FaultCode) (opc : Byte) (s : State) : (takeFault code opc s).faultOpc =
    opc := rfl
@[simp] theorem takeFault_indEn (code : FaultCode) (opc : Byte) (s : State) : (takeFault code opc s).indEn =
    s.indEn := rfl
@[simp] theorem takeFault_strict (code : FaultCode) (opc : Byte) (s : State) : (takeFault code opc s).strict =
    s.strict := rfl
@[simp] theorem takeFault_ftw (code : FaultCode) (opc : Byte) (s : State) : (takeFault code opc s).ftw =
    s.ftw := rfl
@[simp] theorem takeFault_ddsWord (code : FaultCode) (opc : Byte) (s : State) : (takeFault code opc s).ddsWord =
    s.ddsWord := rfl
@[simp] theorem takeFault_wpm (code : FaultCode) (opc : Byte) (s : State) : (takeFault code opc s).wpm =
    s.wpm := rfl
@[simp] theorem takeFault_dropCount (code : FaultCode) (opc : Byte) (s : State) : (takeFault code opc s).dropCount =
    s.dropCount := rfl
@[simp] theorem takeFault_lookup (code : FaultCode) (opc : Byte) (s : State) : (takeFault code opc s).lookup =
    s.lookup := rfl
@[simp] theorem takeFault_msg (code : FaultCode) (opc : Byte) (s : State) : (takeFault code opc s).msg =
    s.msg := rfl
@[simp] theorem takeFault_lines (code : FaultCode) (opc : Byte) (s : State) : (takeFault code opc s).lines =
    s.lines := rfl
@[simp] theorem takeFault_key (code : FaultCode) (opc : Byte) (s : State) : (takeFault code opc s).key =
    s.key := rfl
@[simp] theorem takeFault_ind (code : FaultCode) (opc : Byte) (s : State) : (takeFault code opc s).ind =
    s.ind := rfl
@[simp] theorem takeFault_seq (code : FaultCode) (opc : Byte) (s : State) : (takeFault code opc s).seq =
    Sequencer.idle := rfl
@[simp] theorem takeFault_ddsTrace (code : FaultCode) (opc : Byte) (s : State) : (takeFault code opc s).ddsTrace =
    s.ddsTrace := rfl
@[simp] theorem takeFault_keyTrace (code : FaultCode) (opc : Byte) (s : State) : (takeFault code opc s).keyTrace =
    s.keyTrace := rfl
@[simp] theorem takeFault_cmdTrace (code : FaultCode) (opc : Byte) (s : State) : (takeFault code opc s).cmdTrace =
    s.cmdTrace ++ [.faulted code opc] := rfl
@[simp] theorem takeFault_script (code : FaultCode) (opc : Byte) (s : State) : (takeFault code opc s).script =
    s.script := rfl
@[simp] theorem takeFault_cycle (code : FaultCode) (opc : Byte) (s : State) : (takeFault code opc s).cycle =
    s.cycle := rfl
@[simp] theorem takeFault_tickGap (code : FaultCode) (opc : Byte) (s : State) : (takeFault code opc s).tickGap =
    s.tickGap := rfl

/-! ## `resetBlock` -/

@[simp] theorem resetBlock_busy (s : State) : (resetBlock s).busy = false := rfl
@[simp] theorem resetBlock_initDone (s : State) : (resetBlock s).initDone = false := rfl
@[simp] theorem resetBlock_oor (s : State) : (resetBlock s).oor = false := rfl
@[simp] theorem resetBlock_halted (s : State) : (resetBlock s).halted = false := rfl
@[simp] theorem resetBlock_faultCode (s : State) : (resetBlock s).faultCode = .none := rfl
@[simp] theorem resetBlock_faultOpc (s : State) : (resetBlock s).faultOpc = 0x00#8 := rfl
@[simp] theorem resetBlock_indEn (s : State) : (resetBlock s).indEn = false := rfl
@[simp] theorem resetBlock_strict (s : State) : (resetBlock s).strict = false := rfl
@[simp] theorem resetBlock_ftw (s : State) : (resetBlock s).ftw = 0x00000000#32 := rfl
@[simp] theorem resetBlock_ddsWord (s : State) : (resetBlock s).ddsWord = 0x00000000#32 := rfl
@[simp] theorem resetBlock_wpm (s : State) : (resetBlock s).wpm = 0#16 := rfl
@[simp] theorem resetBlock_dropCount (s : State) : (resetBlock s).dropCount = 0#16 := rfl
@[simp] theorem resetBlock_lookup (s : State) : (resetBlock s).lookup = 0x00000000#32 := rfl
@[simp] theorem resetBlock_msg (s : State) : (resetBlock s).msg = [] := rfl
@[simp] theorem resetBlock_lines (s : State) : (resetBlock s).lines = DdsLines.reset := rfl
@[simp] theorem resetBlock_key (s : State) : (resetBlock s).key = false := rfl
@[simp] theorem resetBlock_ind (s : State) : (resetBlock s).ind = false := rfl
@[simp] theorem resetBlock_seq (s : State) : (resetBlock s).seq = Sequencer.idle := rfl
@[simp] theorem resetBlock_ddsTrace (s : State) : (resetBlock s).ddsTrace = s.ddsTrace := rfl
@[simp] theorem resetBlock_keyTrace (s : State) : (resetBlock s).keyTrace = s.keyTrace := rfl
@[simp] theorem resetBlock_cmdTrace (s : State) : (resetBlock s).cmdTrace = s.cmdTrace := rfl
@[simp] theorem resetBlock_script (s : State) : (resetBlock s).script = s.script := rfl
@[simp] theorem resetBlock_cycle (s : State) : (resetBlock s).cycle = s.cycle := rfl
@[simp] theorem resetBlock_tickGap (s : State) : (resetBlock s).tickGap = s.tickGap := rfl

/-! ## `setInitDone` -/

@[simp] theorem setInitDone_busy (s : State) : (setInitDone s).busy = s.busy := rfl
@[simp] theorem setInitDone_initDone (s : State) : (setInitDone s).initDone = true := rfl
@[simp] theorem setInitDone_oor (s : State) : (setInitDone s).oor = s.oor := rfl
@[simp] theorem setInitDone_halted (s : State) : (setInitDone s).halted = s.halted := rfl
@[simp] theorem setInitDone_faultCode (s : State) : (setInitDone s).faultCode = s.faultCode := rfl
@[simp] theorem setInitDone_faultOpc (s : State) : (setInitDone s).faultOpc = s.faultOpc := rfl
@[simp] theorem setInitDone_indEn (s : State) : (setInitDone s).indEn = s.indEn := rfl
@[simp] theorem setInitDone_strict (s : State) : (setInitDone s).strict = s.strict := rfl
@[simp] theorem setInitDone_ftw (s : State) : (setInitDone s).ftw = s.ftw := rfl
@[simp] theorem setInitDone_ddsWord (s : State) : (setInitDone s).ddsWord = s.ddsWord := rfl
@[simp] theorem setInitDone_wpm (s : State) : (setInitDone s).wpm = s.wpm := rfl
@[simp] theorem setInitDone_dropCount (s : State) : (setInitDone s).dropCount = s.dropCount := rfl
@[simp] theorem setInitDone_lookup (s : State) : (setInitDone s).lookup = s.lookup := rfl
@[simp] theorem setInitDone_msg (s : State) : (setInitDone s).msg = s.msg := rfl
@[simp] theorem setInitDone_lines (s : State) : (setInitDone s).lines = s.lines := rfl
@[simp] theorem setInitDone_key (s : State) : (setInitDone s).key = s.key := rfl
@[simp] theorem setInitDone_ind (s : State) : (setInitDone s).ind = s.ind := rfl
@[simp] theorem setInitDone_seq (s : State) : (setInitDone s).seq = s.seq := rfl
@[simp] theorem setInitDone_ddsTrace (s : State) : (setInitDone s).ddsTrace = s.ddsTrace := rfl
@[simp] theorem setInitDone_keyTrace (s : State) : (setInitDone s).keyTrace = s.keyTrace := rfl
@[simp] theorem setInitDone_cmdTrace (s : State) : (setInitDone s).cmdTrace = s.cmdTrace := rfl
@[simp] theorem setInitDone_script (s : State) : (setInitDone s).script = s.script := rfl
@[simp] theorem setInitDone_cycle (s : State) : (setInitDone s).cycle = s.cycle := rfl
@[simp] theorem setInitDone_tickGap (s : State) : (setInitDone s).tickGap = s.tickGap := rfl

/-! ## `writeTuning` -/

@[simp] theorem writeTuning_busy (P : Config.Params) (f : Nat) (s : State) : (writeTuning P f s).busy =
    s.busy := rfl
@[simp] theorem writeTuning_initDone (P : Config.Params) (f : Nat) (s : State) : (writeTuning P f s).initDone =
    s.initDone := rfl
@[simp] theorem writeTuning_oor (P : Config.Params) (f : Nat) (s : State) : (writeTuning P f s).oor =
    outOfRange f P.refclkHz := rfl
@[simp] theorem writeTuning_halted (P : Config.Params) (f : Nat) (s : State) : (writeTuning P f s).halted =
    s.halted := rfl
@[simp] theorem writeTuning_faultCode (P : Config.Params) (f : Nat) (s : State) : (writeTuning P f s).faultCode =
    s.faultCode := rfl
@[simp] theorem writeTuning_faultOpc (P : Config.Params) (f : Nat) (s : State) : (writeTuning P f s).faultOpc =
    s.faultOpc := rfl
@[simp] theorem writeTuning_indEn (P : Config.Params) (f : Nat) (s : State) : (writeTuning P f s).indEn =
    s.indEn := rfl
@[simp] theorem writeTuning_strict (P : Config.Params) (f : Nat) (s : State) : (writeTuning P f s).strict =
    s.strict := rfl
@[simp] theorem writeTuning_ftw (P : Config.Params) (f : Nat) (s : State) : (writeTuning P f s).ftw =
    tuningWord f P.refclkHz := rfl
@[simp] theorem writeTuning_ddsWord (P : Config.Params) (f : Nat) (s : State) : (writeTuning P f s).ddsWord =
    s.ddsWord := rfl
@[simp] theorem writeTuning_wpm (P : Config.Params) (f : Nat) (s : State) : (writeTuning P f s).wpm = s.wpm := rfl
@[simp] theorem writeTuning_dropCount (P : Config.Params) (f : Nat) (s : State) : (writeTuning P f s).dropCount =
    s.dropCount := rfl
@[simp] theorem writeTuning_lookup (P : Config.Params) (f : Nat) (s : State) : (writeTuning P f s).lookup =
    s.lookup := rfl
@[simp] theorem writeTuning_msg (P : Config.Params) (f : Nat) (s : State) : (writeTuning P f s).msg = s.msg := rfl
@[simp] theorem writeTuning_lines (P : Config.Params) (f : Nat) (s : State) : (writeTuning P f s).lines =
    s.lines := rfl
@[simp] theorem writeTuning_key (P : Config.Params) (f : Nat) (s : State) : (writeTuning P f s).key = s.key := rfl
@[simp] theorem writeTuning_ind (P : Config.Params) (f : Nat) (s : State) : (writeTuning P f s).ind = s.ind := rfl
@[simp] theorem writeTuning_seq (P : Config.Params) (f : Nat) (s : State) : (writeTuning P f s).seq = s.seq := rfl
@[simp] theorem writeTuning_ddsTrace (P : Config.Params) (f : Nat) (s : State) : (writeTuning P f s).ddsTrace =
    s.ddsTrace := rfl
@[simp] theorem writeTuning_keyTrace (P : Config.Params) (f : Nat) (s : State) : (writeTuning P f s).keyTrace =
    s.keyTrace := rfl
@[simp] theorem writeTuning_cmdTrace (P : Config.Params) (f : Nat) (s : State) : (writeTuning P f s).cmdTrace =
    s.cmdTrace := rfl
@[simp] theorem writeTuning_script (P : Config.Params) (f : Nat) (s : State) : (writeTuning P f s).script =
    s.script := rfl
@[simp] theorem writeTuning_cycle (P : Config.Params) (f : Nat) (s : State) : (writeTuning P f s).cycle =
    s.cycle := rfl
@[simp] theorem writeTuning_tickGap (P : Config.Params) (f : Nat) (s : State) : (writeTuning P f s).tickGap =
    s.tickGap := rfl

/-! ## `setDdsWord` -/

@[simp] theorem setDdsWord_busy (w : Word) (s : State) : (setDdsWord w s).busy = s.busy := rfl
@[simp] theorem setDdsWord_initDone (w : Word) (s : State) : (setDdsWord w s).initDone = s.initDone := rfl
@[simp] theorem setDdsWord_oor (w : Word) (s : State) : (setDdsWord w s).oor = s.oor := rfl
@[simp] theorem setDdsWord_halted (w : Word) (s : State) : (setDdsWord w s).halted = s.halted := rfl
@[simp] theorem setDdsWord_faultCode (w : Word) (s : State) : (setDdsWord w s).faultCode = s.faultCode := rfl
@[simp] theorem setDdsWord_faultOpc (w : Word) (s : State) : (setDdsWord w s).faultOpc = s.faultOpc := rfl
@[simp] theorem setDdsWord_indEn (w : Word) (s : State) : (setDdsWord w s).indEn = s.indEn := rfl
@[simp] theorem setDdsWord_strict (w : Word) (s : State) : (setDdsWord w s).strict = s.strict := rfl
@[simp] theorem setDdsWord_ftw (w : Word) (s : State) : (setDdsWord w s).ftw = s.ftw := rfl
@[simp] theorem setDdsWord_ddsWord (w : Word) (s : State) : (setDdsWord w s).ddsWord = w := rfl
@[simp] theorem setDdsWord_wpm (w : Word) (s : State) : (setDdsWord w s).wpm = s.wpm := rfl
@[simp] theorem setDdsWord_dropCount (w : Word) (s : State) : (setDdsWord w s).dropCount = s.dropCount := rfl
@[simp] theorem setDdsWord_lookup (w : Word) (s : State) : (setDdsWord w s).lookup = s.lookup := rfl
@[simp] theorem setDdsWord_msg (w : Word) (s : State) : (setDdsWord w s).msg = s.msg := rfl
@[simp] theorem setDdsWord_lines (w : Word) (s : State) : (setDdsWord w s).lines = s.lines := rfl
@[simp] theorem setDdsWord_key (w : Word) (s : State) : (setDdsWord w s).key = s.key := rfl
@[simp] theorem setDdsWord_ind (w : Word) (s : State) : (setDdsWord w s).ind = s.ind := rfl
@[simp] theorem setDdsWord_seq (w : Word) (s : State) : (setDdsWord w s).seq = s.seq := rfl
@[simp] theorem setDdsWord_ddsTrace (w : Word) (s : State) : (setDdsWord w s).ddsTrace = s.ddsTrace := rfl
@[simp] theorem setDdsWord_keyTrace (w : Word) (s : State) : (setDdsWord w s).keyTrace = s.keyTrace := rfl
@[simp] theorem setDdsWord_cmdTrace (w : Word) (s : State) : (setDdsWord w s).cmdTrace = s.cmdTrace := rfl
@[simp] theorem setDdsWord_script (w : Word) (s : State) : (setDdsWord w s).script = s.script := rfl
@[simp] theorem setDdsWord_cycle (w : Word) (s : State) : (setDdsWord w s).cycle = s.cycle := rfl
@[simp] theorem setDdsWord_tickGap (w : Word) (s : State) : (setDdsWord w s).tickGap = s.tickGap := rfl

/-! ## `writeWpm` -/

@[simp] theorem writeWpm_busy (n : Nat) (s : State) : (writeWpm n s).busy = s.busy := rfl
@[simp] theorem writeWpm_initDone (n : Nat) (s : State) : (writeWpm n s).initDone = s.initDone := rfl
@[simp] theorem writeWpm_oor (n : Nat) (s : State) : (writeWpm n s).oor = s.oor := rfl
@[simp] theorem writeWpm_halted (n : Nat) (s : State) : (writeWpm n s).halted = s.halted := rfl
@[simp] theorem writeWpm_faultCode (n : Nat) (s : State) : (writeWpm n s).faultCode = s.faultCode := rfl
@[simp] theorem writeWpm_faultOpc (n : Nat) (s : State) : (writeWpm n s).faultOpc = s.faultOpc := rfl
@[simp] theorem writeWpm_indEn (n : Nat) (s : State) : (writeWpm n s).indEn = s.indEn := rfl
@[simp] theorem writeWpm_strict (n : Nat) (s : State) : (writeWpm n s).strict = s.strict := rfl
@[simp] theorem writeWpm_ftw (n : Nat) (s : State) : (writeWpm n s).ftw = s.ftw := rfl
@[simp] theorem writeWpm_ddsWord (n : Nat) (s : State) : (writeWpm n s).ddsWord = s.ddsWord := rfl
@[simp] theorem writeWpm_wpm (n : Nat) (s : State) : (writeWpm n s).wpm = BitVec.ofNat 16 n := rfl
@[simp] theorem writeWpm_dropCount (n : Nat) (s : State) : (writeWpm n s).dropCount = s.dropCount := rfl
@[simp] theorem writeWpm_lookup (n : Nat) (s : State) : (writeWpm n s).lookup = s.lookup := rfl
@[simp] theorem writeWpm_msg (n : Nat) (s : State) : (writeWpm n s).msg = s.msg := rfl
@[simp] theorem writeWpm_lines (n : Nat) (s : State) : (writeWpm n s).lines = s.lines := rfl
@[simp] theorem writeWpm_key (n : Nat) (s : State) : (writeWpm n s).key = s.key := rfl
@[simp] theorem writeWpm_ind (n : Nat) (s : State) : (writeWpm n s).ind = s.ind := rfl
@[simp] theorem writeWpm_seq (n : Nat) (s : State) : (writeWpm n s).seq = s.seq := rfl
@[simp] theorem writeWpm_ddsTrace (n : Nat) (s : State) : (writeWpm n s).ddsTrace = s.ddsTrace := rfl
@[simp] theorem writeWpm_keyTrace (n : Nat) (s : State) : (writeWpm n s).keyTrace = s.keyTrace := rfl
@[simp] theorem writeWpm_cmdTrace (n : Nat) (s : State) : (writeWpm n s).cmdTrace = s.cmdTrace := rfl
@[simp] theorem writeWpm_script (n : Nat) (s : State) : (writeWpm n s).script = s.script := rfl
@[simp] theorem writeWpm_cycle (n : Nat) (s : State) : (writeWpm n s).cycle = s.cycle := rfl
@[simp] theorem writeWpm_tickGap (n : Nat) (s : State) : (writeWpm n s).tickGap = s.tickGap := rfl

/-! ## `writeMsg` -/

@[simp] theorem writeMsg_busy (i : Nat) (ch : Byte) (s : State) : (writeMsg i ch s).busy = s.busy := rfl
@[simp] theorem writeMsg_initDone (i : Nat) (ch : Byte) (s : State) : (writeMsg i ch s).initDone =
    s.initDone := rfl
@[simp] theorem writeMsg_oor (i : Nat) (ch : Byte) (s : State) : (writeMsg i ch s).oor = s.oor := rfl
@[simp] theorem writeMsg_halted (i : Nat) (ch : Byte) (s : State) : (writeMsg i ch s).halted = s.halted := rfl
@[simp] theorem writeMsg_faultCode (i : Nat) (ch : Byte) (s : State) : (writeMsg i ch s).faultCode =
    s.faultCode := rfl
@[simp] theorem writeMsg_faultOpc (i : Nat) (ch : Byte) (s : State) : (writeMsg i ch s).faultOpc =
    s.faultOpc := rfl
@[simp] theorem writeMsg_indEn (i : Nat) (ch : Byte) (s : State) : (writeMsg i ch s).indEn = s.indEn := rfl
@[simp] theorem writeMsg_strict (i : Nat) (ch : Byte) (s : State) : (writeMsg i ch s).strict = s.strict := rfl
@[simp] theorem writeMsg_ftw (i : Nat) (ch : Byte) (s : State) : (writeMsg i ch s).ftw = s.ftw := rfl
@[simp] theorem writeMsg_ddsWord (i : Nat) (ch : Byte) (s : State) : (writeMsg i ch s).ddsWord = s.ddsWord := rfl
@[simp] theorem writeMsg_wpm (i : Nat) (ch : Byte) (s : State) : (writeMsg i ch s).wpm = s.wpm := rfl
@[simp] theorem writeMsg_dropCount (i : Nat) (ch : Byte) (s : State) : (writeMsg i ch s).dropCount =
    s.dropCount := rfl
@[simp] theorem writeMsg_lookup (i : Nat) (ch : Byte) (s : State) : (writeMsg i ch s).lookup = s.lookup := rfl
@[simp] theorem writeMsg_msg (i : Nat) (ch : Byte) (s : State) : (writeMsg i ch s).msg =
    memWrite s.msg i ch := rfl
@[simp] theorem writeMsg_lines (i : Nat) (ch : Byte) (s : State) : (writeMsg i ch s).lines = s.lines := rfl
@[simp] theorem writeMsg_key (i : Nat) (ch : Byte) (s : State) : (writeMsg i ch s).key = s.key := rfl
@[simp] theorem writeMsg_ind (i : Nat) (ch : Byte) (s : State) : (writeMsg i ch s).ind = s.ind := rfl
@[simp] theorem writeMsg_seq (i : Nat) (ch : Byte) (s : State) : (writeMsg i ch s).seq = s.seq := rfl
@[simp] theorem writeMsg_ddsTrace (i : Nat) (ch : Byte) (s : State) : (writeMsg i ch s).ddsTrace =
    s.ddsTrace := rfl
@[simp] theorem writeMsg_keyTrace (i : Nat) (ch : Byte) (s : State) : (writeMsg i ch s).keyTrace =
    s.keyTrace := rfl
@[simp] theorem writeMsg_cmdTrace (i : Nat) (ch : Byte) (s : State) : (writeMsg i ch s).cmdTrace =
    s.cmdTrace := rfl
@[simp] theorem writeMsg_script (i : Nat) (ch : Byte) (s : State) : (writeMsg i ch s).script = s.script := rfl
@[simp] theorem writeMsg_cycle (i : Nat) (ch : Byte) (s : State) : (writeMsg i ch s).cycle = s.cycle := rfl
@[simp] theorem writeMsg_tickGap (i : Nat) (ch : Byte) (s : State) : (writeMsg i ch s).tickGap = s.tickGap := rfl

/-! ## `writeLookup` -/

@[simp] theorem writeLookup_busy (P : Config.Params) (ch : Byte) (s : State) : (writeLookup P ch s).busy =
    s.busy := rfl
@[simp] theorem writeLookup_initDone (P : Config.Params) (ch : Byte) (s : State) : (writeLookup P ch s).initDone =
    s.initDone := rfl
@[simp] theorem writeLookup_oor (P : Config.Params) (ch : Byte) (s : State) : (writeLookup P ch s).oor =
    s.oor := rfl
@[simp] theorem writeLookup_halted (P : Config.Params) (ch : Byte) (s : State) : (writeLookup P ch s).halted =
    s.halted := rfl
@[simp] theorem writeLookup_faultCode (P : Config.Params) (ch : Byte) (s : State) : (writeLookup P ch s).faultCode =
    s.faultCode := rfl
@[simp] theorem writeLookup_faultOpc (P : Config.Params) (ch : Byte) (s : State) : (writeLookup P ch s).faultOpc =
    s.faultOpc := rfl
@[simp] theorem writeLookup_indEn (P : Config.Params) (ch : Byte) (s : State) : (writeLookup P ch s).indEn =
    s.indEn := rfl
@[simp] theorem writeLookup_strict (P : Config.Params) (ch : Byte) (s : State) : (writeLookup P ch s).strict =
    s.strict := rfl
@[simp] theorem writeLookup_ftw (P : Config.Params) (ch : Byte) (s : State) : (writeLookup P ch s).ftw =
    s.ftw := rfl
@[simp] theorem writeLookup_ddsWord (P : Config.Params) (ch : Byte) (s : State) : (writeLookup P ch s).ddsWord =
    s.ddsWord := rfl
@[simp] theorem writeLookup_wpm (P : Config.Params) (ch : Byte) (s : State) : (writeLookup P ch s).wpm =
    s.wpm := rfl
@[simp] theorem writeLookup_dropCount (P : Config.Params) (ch : Byte) (s : State) : (writeLookup P ch s).dropCount =
    s.dropCount := rfl
@[simp] theorem writeLookup_lookup (P : Config.Params) (ch : Byte) (s : State) : (writeLookup P ch s).lookup =
    lookupValue (classify P.morseTable ch) := rfl
@[simp] theorem writeLookup_msg (P : Config.Params) (ch : Byte) (s : State) : (writeLookup P ch s).msg =
    s.msg := rfl
@[simp] theorem writeLookup_lines (P : Config.Params) (ch : Byte) (s : State) : (writeLookup P ch s).lines =
    s.lines := rfl
@[simp] theorem writeLookup_key (P : Config.Params) (ch : Byte) (s : State) : (writeLookup P ch s).key =
    s.key := rfl
@[simp] theorem writeLookup_ind (P : Config.Params) (ch : Byte) (s : State) : (writeLookup P ch s).ind =
    s.ind := rfl
@[simp] theorem writeLookup_seq (P : Config.Params) (ch : Byte) (s : State) : (writeLookup P ch s).seq =
    s.seq := rfl
@[simp] theorem writeLookup_ddsTrace (P : Config.Params) (ch : Byte) (s : State) : (writeLookup P ch s).ddsTrace =
    s.ddsTrace := rfl
@[simp] theorem writeLookup_keyTrace (P : Config.Params) (ch : Byte) (s : State) : (writeLookup P ch s).keyTrace =
    s.keyTrace := rfl
@[simp] theorem writeLookup_cmdTrace (P : Config.Params) (ch : Byte) (s : State) : (writeLookup P ch s).cmdTrace =
    s.cmdTrace := rfl
@[simp] theorem writeLookup_script (P : Config.Params) (ch : Byte) (s : State) : (writeLookup P ch s).script =
    s.script := rfl
@[simp] theorem writeLookup_cycle (P : Config.Params) (ch : Byte) (s : State) : (writeLookup P ch s).cycle =
    s.cycle := rfl
@[simp] theorem writeLookup_tickGap (P : Config.Params) (ch : Byte) (s : State) : (writeLookup P ch s).tickGap =
    s.tickGap := rfl

/-! ## `clearForTx` -/

@[simp] theorem clearForTx_busy (s : State) : (clearForTx s).busy = s.busy := rfl
@[simp] theorem clearForTx_initDone (s : State) : (clearForTx s).initDone = s.initDone := rfl
@[simp] theorem clearForTx_oor (s : State) : (clearForTx s).oor = s.oor := rfl
@[simp] theorem clearForTx_halted (s : State) : (clearForTx s).halted = s.halted := rfl
@[simp] theorem clearForTx_faultCode (s : State) : (clearForTx s).faultCode = s.faultCode := rfl
@[simp] theorem clearForTx_faultOpc (s : State) : (clearForTx s).faultOpc = s.faultOpc := rfl
@[simp] theorem clearForTx_indEn (s : State) : (clearForTx s).indEn = s.indEn := rfl
@[simp] theorem clearForTx_strict (s : State) : (clearForTx s).strict = s.strict := rfl
@[simp] theorem clearForTx_ftw (s : State) : (clearForTx s).ftw = s.ftw := rfl
@[simp] theorem clearForTx_ddsWord (s : State) : (clearForTx s).ddsWord = s.ddsWord := rfl
@[simp] theorem clearForTx_wpm (s : State) : (clearForTx s).wpm = s.wpm := rfl
@[simp] theorem clearForTx_dropCount (s : State) : (clearForTx s).dropCount = 0#16 := rfl
@[simp] theorem clearForTx_lookup (s : State) : (clearForTx s).lookup = s.lookup := rfl
@[simp] theorem clearForTx_msg (s : State) : (clearForTx s).msg = s.msg := rfl
@[simp] theorem clearForTx_lines (s : State) : (clearForTx s).lines = s.lines := rfl
@[simp] theorem clearForTx_key (s : State) : (clearForTx s).key = false := rfl
@[simp] theorem clearForTx_ind (s : State) : (clearForTx s).ind = false := rfl
@[simp] theorem clearForTx_seq (s : State) : (clearForTx s).seq = s.seq := rfl
@[simp] theorem clearForTx_ddsTrace (s : State) : (clearForTx s).ddsTrace = s.ddsTrace := rfl
@[simp] theorem clearForTx_keyTrace (s : State) : (clearForTx s).keyTrace = s.keyTrace := rfl
@[simp] theorem clearForTx_cmdTrace (s : State) : (clearForTx s).cmdTrace = s.cmdTrace := rfl
@[simp] theorem clearForTx_script (s : State) : (clearForTx s).script = s.script := rfl
@[simp] theorem clearForTx_cycle (s : State) : (clearForTx s).cycle = s.cycle := rfl
@[simp] theorem clearForTx_tickGap (s : State) : (clearForTx s).tickGap = s.tickGap := rfl

/-! ## `setDropCount` -/

@[simp] theorem setDropCount_busy (n : Nat) (s : State) : (setDropCount n s).busy = s.busy := rfl
@[simp] theorem setDropCount_initDone (n : Nat) (s : State) : (setDropCount n s).initDone = s.initDone := rfl
@[simp] theorem setDropCount_oor (n : Nat) (s : State) : (setDropCount n s).oor = s.oor := rfl
@[simp] theorem setDropCount_halted (n : Nat) (s : State) : (setDropCount n s).halted = s.halted := rfl
@[simp] theorem setDropCount_faultCode (n : Nat) (s : State) : (setDropCount n s).faultCode = s.faultCode := rfl
@[simp] theorem setDropCount_faultOpc (n : Nat) (s : State) : (setDropCount n s).faultOpc = s.faultOpc := rfl
@[simp] theorem setDropCount_indEn (n : Nat) (s : State) : (setDropCount n s).indEn = s.indEn := rfl
@[simp] theorem setDropCount_strict (n : Nat) (s : State) : (setDropCount n s).strict = s.strict := rfl
@[simp] theorem setDropCount_ftw (n : Nat) (s : State) : (setDropCount n s).ftw = s.ftw := rfl
@[simp] theorem setDropCount_ddsWord (n : Nat) (s : State) : (setDropCount n s).ddsWord = s.ddsWord := rfl
@[simp] theorem setDropCount_wpm (n : Nat) (s : State) : (setDropCount n s).wpm = s.wpm := rfl
@[simp] theorem setDropCount_dropCount (n : Nat) (s : State) : (setDropCount n s).dropCount =
    BitVec.ofNat 16 n := rfl
@[simp] theorem setDropCount_lookup (n : Nat) (s : State) : (setDropCount n s).lookup = s.lookup := rfl
@[simp] theorem setDropCount_msg (n : Nat) (s : State) : (setDropCount n s).msg = s.msg := rfl
@[simp] theorem setDropCount_lines (n : Nat) (s : State) : (setDropCount n s).lines = s.lines := rfl
@[simp] theorem setDropCount_key (n : Nat) (s : State) : (setDropCount n s).key = s.key := rfl
@[simp] theorem setDropCount_ind (n : Nat) (s : State) : (setDropCount n s).ind = s.ind := rfl
@[simp] theorem setDropCount_seq (n : Nat) (s : State) : (setDropCount n s).seq = s.seq := rfl
@[simp] theorem setDropCount_ddsTrace (n : Nat) (s : State) : (setDropCount n s).ddsTrace = s.ddsTrace := rfl
@[simp] theorem setDropCount_keyTrace (n : Nat) (s : State) : (setDropCount n s).keyTrace = s.keyTrace := rfl
@[simp] theorem setDropCount_cmdTrace (n : Nat) (s : State) : (setDropCount n s).cmdTrace = s.cmdTrace := rfl
@[simp] theorem setDropCount_script (n : Nat) (s : State) : (setDropCount n s).script = s.script := rfl
@[simp] theorem setDropCount_cycle (n : Nat) (s : State) : (setDropCount n s).cycle = s.cycle := rfl
@[simp] theorem setDropCount_tickGap (n : Nat) (s : State) : (setDropCount n s).tickGap = s.tickGap := rfl

/-! ## `writeCtrl` -/

@[simp] theorem writeCtrl_busy (ie st : Bool) (s : State) : (writeCtrl ie st s).busy = s.busy := rfl
@[simp] theorem writeCtrl_initDone (ie st : Bool) (s : State) : (writeCtrl ie st s).initDone = s.initDone := rfl
@[simp] theorem writeCtrl_oor (ie st : Bool) (s : State) : (writeCtrl ie st s).oor = s.oor := rfl
@[simp] theorem writeCtrl_halted (ie st : Bool) (s : State) : (writeCtrl ie st s).halted = s.halted := rfl
@[simp] theorem writeCtrl_faultCode (ie st : Bool) (s : State) : (writeCtrl ie st s).faultCode =
    s.faultCode := rfl
@[simp] theorem writeCtrl_faultOpc (ie st : Bool) (s : State) : (writeCtrl ie st s).faultOpc = s.faultOpc := rfl
@[simp] theorem writeCtrl_indEn (ie st : Bool) (s : State) : (writeCtrl ie st s).indEn = ie := rfl
@[simp] theorem writeCtrl_strict (ie st : Bool) (s : State) : (writeCtrl ie st s).strict = st := rfl
@[simp] theorem writeCtrl_ftw (ie st : Bool) (s : State) : (writeCtrl ie st s).ftw = s.ftw := rfl
@[simp] theorem writeCtrl_ddsWord (ie st : Bool) (s : State) : (writeCtrl ie st s).ddsWord = s.ddsWord := rfl
@[simp] theorem writeCtrl_wpm (ie st : Bool) (s : State) : (writeCtrl ie st s).wpm = s.wpm := rfl
@[simp] theorem writeCtrl_dropCount (ie st : Bool) (s : State) : (writeCtrl ie st s).dropCount =
    s.dropCount := rfl
@[simp] theorem writeCtrl_lookup (ie st : Bool) (s : State) : (writeCtrl ie st s).lookup = s.lookup := rfl
@[simp] theorem writeCtrl_msg (ie st : Bool) (s : State) : (writeCtrl ie st s).msg = s.msg := rfl
@[simp] theorem writeCtrl_lines (ie st : Bool) (s : State) : (writeCtrl ie st s).lines = s.lines := rfl
@[simp] theorem writeCtrl_key (ie st : Bool) (s : State) : (writeCtrl ie st s).key = s.key := rfl
@[simp] theorem writeCtrl_ind (ie st : Bool) (s : State) : (writeCtrl ie st s).ind = s.ind := rfl
@[simp] theorem writeCtrl_seq (ie st : Bool) (s : State) : (writeCtrl ie st s).seq = s.seq := rfl
@[simp] theorem writeCtrl_ddsTrace (ie st : Bool) (s : State) : (writeCtrl ie st s).ddsTrace = s.ddsTrace := rfl
@[simp] theorem writeCtrl_keyTrace (ie st : Bool) (s : State) : (writeCtrl ie st s).keyTrace = s.keyTrace := rfl
@[simp] theorem writeCtrl_cmdTrace (ie st : Bool) (s : State) : (writeCtrl ie st s).cmdTrace = s.cmdTrace := rfl
@[simp] theorem writeCtrl_script (ie st : Bool) (s : State) : (writeCtrl ie st s).script = s.script := rfl
@[simp] theorem writeCtrl_cycle (ie st : Bool) (s : State) : (writeCtrl ie st s).cycle = s.cycle := rfl
@[simp] theorem writeCtrl_tickGap (ie st : Bool) (s : State) : (writeCtrl ie st s).tickGap = s.tickGap := rfl

/-! ## `setSeq` -/

@[simp] theorem setSeq_busy (q : Sequencer) (s : State) : (setSeq q s).busy = s.busy := rfl
@[simp] theorem setSeq_initDone (q : Sequencer) (s : State) : (setSeq q s).initDone = s.initDone := rfl
@[simp] theorem setSeq_oor (q : Sequencer) (s : State) : (setSeq q s).oor = s.oor := rfl
@[simp] theorem setSeq_halted (q : Sequencer) (s : State) : (setSeq q s).halted = s.halted := rfl
@[simp] theorem setSeq_faultCode (q : Sequencer) (s : State) : (setSeq q s).faultCode = s.faultCode := rfl
@[simp] theorem setSeq_faultOpc (q : Sequencer) (s : State) : (setSeq q s).faultOpc = s.faultOpc := rfl
@[simp] theorem setSeq_indEn (q : Sequencer) (s : State) : (setSeq q s).indEn = s.indEn := rfl
@[simp] theorem setSeq_strict (q : Sequencer) (s : State) : (setSeq q s).strict = s.strict := rfl
@[simp] theorem setSeq_ftw (q : Sequencer) (s : State) : (setSeq q s).ftw = s.ftw := rfl
@[simp] theorem setSeq_ddsWord (q : Sequencer) (s : State) : (setSeq q s).ddsWord = s.ddsWord := rfl
@[simp] theorem setSeq_wpm (q : Sequencer) (s : State) : (setSeq q s).wpm = s.wpm := rfl
@[simp] theorem setSeq_dropCount (q : Sequencer) (s : State) : (setSeq q s).dropCount = s.dropCount := rfl
@[simp] theorem setSeq_lookup (q : Sequencer) (s : State) : (setSeq q s).lookup = s.lookup := rfl
@[simp] theorem setSeq_msg (q : Sequencer) (s : State) : (setSeq q s).msg = s.msg := rfl
@[simp] theorem setSeq_lines (q : Sequencer) (s : State) : (setSeq q s).lines = s.lines := rfl
@[simp] theorem setSeq_key (q : Sequencer) (s : State) : (setSeq q s).key = s.key := rfl
@[simp] theorem setSeq_ind (q : Sequencer) (s : State) : (setSeq q s).ind = s.ind := rfl
@[simp] theorem setSeq_seq (q : Sequencer) (s : State) : (setSeq q s).seq = q := rfl
@[simp] theorem setSeq_ddsTrace (q : Sequencer) (s : State) : (setSeq q s).ddsTrace = s.ddsTrace := rfl
@[simp] theorem setSeq_keyTrace (q : Sequencer) (s : State) : (setSeq q s).keyTrace = s.keyTrace := rfl
@[simp] theorem setSeq_cmdTrace (q : Sequencer) (s : State) : (setSeq q s).cmdTrace = s.cmdTrace := rfl
@[simp] theorem setSeq_script (q : Sequencer) (s : State) : (setSeq q s).script = s.script := rfl
@[simp] theorem setSeq_cycle (q : Sequencer) (s : State) : (setSeq q s).cycle = s.cycle := rfl
@[simp] theorem setSeq_tickGap (q : Sequencer) (s : State) : (setSeq q s).tickGap = s.tickGap := rfl

/-! ## `countEdge` -/

@[simp] theorem countEdge_busy (p : Pins) (s : State) : (countEdge p s).busy = s.busy := rfl
@[simp] theorem countEdge_initDone (p : Pins) (s : State) : (countEdge p s).initDone = s.initDone := rfl
@[simp] theorem countEdge_oor (p : Pins) (s : State) : (countEdge p s).oor = s.oor := rfl
@[simp] theorem countEdge_halted (p : Pins) (s : State) : (countEdge p s).halted = s.halted := rfl
@[simp] theorem countEdge_faultCode (p : Pins) (s : State) : (countEdge p s).faultCode = s.faultCode := rfl
@[simp] theorem countEdge_faultOpc (p : Pins) (s : State) : (countEdge p s).faultOpc = s.faultOpc := rfl
@[simp] theorem countEdge_indEn (p : Pins) (s : State) : (countEdge p s).indEn = s.indEn := rfl
@[simp] theorem countEdge_strict (p : Pins) (s : State) : (countEdge p s).strict = s.strict := rfl
@[simp] theorem countEdge_ftw (p : Pins) (s : State) : (countEdge p s).ftw = s.ftw := rfl
@[simp] theorem countEdge_ddsWord (p : Pins) (s : State) : (countEdge p s).ddsWord = s.ddsWord := rfl
@[simp] theorem countEdge_wpm (p : Pins) (s : State) : (countEdge p s).wpm = s.wpm := rfl
@[simp] theorem countEdge_dropCount (p : Pins) (s : State) : (countEdge p s).dropCount = s.dropCount := rfl
@[simp] theorem countEdge_lookup (p : Pins) (s : State) : (countEdge p s).lookup = s.lookup := rfl
@[simp] theorem countEdge_msg (p : Pins) (s : State) : (countEdge p s).msg = s.msg := rfl
@[simp] theorem countEdge_lines (p : Pins) (s : State) : (countEdge p s).lines = s.lines := rfl
@[simp] theorem countEdge_key (p : Pins) (s : State) : (countEdge p s).key = s.key := rfl
@[simp] theorem countEdge_ind (p : Pins) (s : State) : (countEdge p s).ind = s.ind := rfl
@[simp] theorem countEdge_seq (p : Pins) (s : State) : (countEdge p s).seq = s.seq := rfl
@[simp] theorem countEdge_ddsTrace (p : Pins) (s : State) : (countEdge p s).ddsTrace = s.ddsTrace := rfl
@[simp] theorem countEdge_keyTrace (p : Pins) (s : State) : (countEdge p s).keyTrace = s.keyTrace := rfl
@[simp] theorem countEdge_cmdTrace (p : Pins) (s : State) : (countEdge p s).cmdTrace = s.cmdTrace := rfl
@[simp] theorem countEdge_script (p : Pins) (s : State) : (countEdge p s).script = s.script := rfl
@[simp] theorem countEdge_cycle (p : Pins) (s : State) : (countEdge p s).cycle = s.cycle + 1 := rfl
@[simp] theorem countEdge_tickGap (p : Pins) (s : State) : (countEdge p s).tickGap =
    if p.tickMs then 0 else min (s.tickGap + 1) tickGapMax := rfl

/-! ## `popScript` -/

@[simp] theorem popScript_busy (s : State) : (popScript s).busy = s.busy := rfl
@[simp] theorem popScript_initDone (s : State) : (popScript s).initDone = s.initDone := rfl
@[simp] theorem popScript_oor (s : State) : (popScript s).oor = s.oor := rfl
@[simp] theorem popScript_halted (s : State) : (popScript s).halted = s.halted := rfl
@[simp] theorem popScript_faultCode (s : State) : (popScript s).faultCode = s.faultCode := rfl
@[simp] theorem popScript_faultOpc (s : State) : (popScript s).faultOpc = s.faultOpc := rfl
@[simp] theorem popScript_indEn (s : State) : (popScript s).indEn = s.indEn := rfl
@[simp] theorem popScript_strict (s : State) : (popScript s).strict = s.strict := rfl
@[simp] theorem popScript_ftw (s : State) : (popScript s).ftw = s.ftw := rfl
@[simp] theorem popScript_ddsWord (s : State) : (popScript s).ddsWord = s.ddsWord := rfl
@[simp] theorem popScript_wpm (s : State) : (popScript s).wpm = s.wpm := rfl
@[simp] theorem popScript_dropCount (s : State) : (popScript s).dropCount = s.dropCount := rfl
@[simp] theorem popScript_lookup (s : State) : (popScript s).lookup = s.lookup := rfl
@[simp] theorem popScript_msg (s : State) : (popScript s).msg = s.msg := rfl
@[simp] theorem popScript_lines (s : State) : (popScript s).lines = s.lines := rfl
@[simp] theorem popScript_key (s : State) : (popScript s).key = s.key := rfl
@[simp] theorem popScript_ind (s : State) : (popScript s).ind = s.ind := rfl
@[simp] theorem popScript_seq (s : State) : (popScript s).seq = s.seq := rfl
@[simp] theorem popScript_ddsTrace (s : State) : (popScript s).ddsTrace = s.ddsTrace := rfl
@[simp] theorem popScript_keyTrace (s : State) : (popScript s).keyTrace = s.keyTrace := rfl
@[simp] theorem popScript_cmdTrace (s : State) : (popScript s).cmdTrace = s.cmdTrace := rfl
@[simp] theorem popScript_script (s : State) : (popScript s).script = s.script.tail := rfl
@[simp] theorem popScript_cycle (s : State) : (popScript s).cycle = s.cycle := rfl
@[simp] theorem popScript_tickGap (s : State) : (popScript s).tickGap = s.tickGap := rfl

/-! ## `forgetTick` -/

@[simp] theorem forgetTick_busy (s : State) : (forgetTick s).busy = s.busy := rfl
@[simp] theorem forgetTick_initDone (s : State) : (forgetTick s).initDone = s.initDone := rfl
@[simp] theorem forgetTick_oor (s : State) : (forgetTick s).oor = s.oor := rfl
@[simp] theorem forgetTick_halted (s : State) : (forgetTick s).halted = s.halted := rfl
@[simp] theorem forgetTick_faultCode (s : State) : (forgetTick s).faultCode = s.faultCode := rfl
@[simp] theorem forgetTick_faultOpc (s : State) : (forgetTick s).faultOpc = s.faultOpc := rfl
@[simp] theorem forgetTick_indEn (s : State) : (forgetTick s).indEn = s.indEn := rfl
@[simp] theorem forgetTick_strict (s : State) : (forgetTick s).strict = s.strict := rfl
@[simp] theorem forgetTick_ftw (s : State) : (forgetTick s).ftw = s.ftw := rfl
@[simp] theorem forgetTick_ddsWord (s : State) : (forgetTick s).ddsWord = s.ddsWord := rfl
@[simp] theorem forgetTick_wpm (s : State) : (forgetTick s).wpm = s.wpm := rfl
@[simp] theorem forgetTick_dropCount (s : State) : (forgetTick s).dropCount = s.dropCount := rfl
@[simp] theorem forgetTick_lookup (s : State) : (forgetTick s).lookup = s.lookup := rfl
@[simp] theorem forgetTick_msg (s : State) : (forgetTick s).msg = s.msg := rfl
@[simp] theorem forgetTick_lines (s : State) : (forgetTick s).lines = s.lines := rfl
@[simp] theorem forgetTick_key (s : State) : (forgetTick s).key = s.key := rfl
@[simp] theorem forgetTick_ind (s : State) : (forgetTick s).ind = s.ind := rfl
@[simp] theorem forgetTick_seq (s : State) : (forgetTick s).seq = s.seq := rfl
@[simp] theorem forgetTick_ddsTrace (s : State) : (forgetTick s).ddsTrace = s.ddsTrace := rfl
@[simp] theorem forgetTick_keyTrace (s : State) : (forgetTick s).keyTrace = s.keyTrace := rfl
@[simp] theorem forgetTick_cmdTrace (s : State) : (forgetTick s).cmdTrace = s.cmdTrace := rfl
@[simp] theorem forgetTick_script (s : State) : (forgetTick s).script = s.script := rfl
@[simp] theorem forgetTick_cycle (s : State) : (forgetTick s).cycle = s.cycle := rfl
@[simp] theorem forgetTick_tickGap (s : State) : (forgetTick s).tickGap = 0 := rfl

/-! ## `offerFirst` -/

@[simp] theorem offerFirst_busy (w : Cmd) (s : State) : (offerFirst w s).busy = s.busy := rfl
@[simp] theorem offerFirst_initDone (w : Cmd) (s : State) : (offerFirst w s).initDone = s.initDone := rfl
@[simp] theorem offerFirst_oor (w : Cmd) (s : State) : (offerFirst w s).oor = s.oor := rfl
@[simp] theorem offerFirst_halted (w : Cmd) (s : State) : (offerFirst w s).halted = s.halted := rfl
@[simp] theorem offerFirst_faultCode (w : Cmd) (s : State) : (offerFirst w s).faultCode = s.faultCode := rfl
@[simp] theorem offerFirst_faultOpc (w : Cmd) (s : State) : (offerFirst w s).faultOpc = s.faultOpc := rfl
@[simp] theorem offerFirst_indEn (w : Cmd) (s : State) : (offerFirst w s).indEn = s.indEn := rfl
@[simp] theorem offerFirst_strict (w : Cmd) (s : State) : (offerFirst w s).strict = s.strict := rfl
@[simp] theorem offerFirst_ftw (w : Cmd) (s : State) : (offerFirst w s).ftw = s.ftw := rfl
@[simp] theorem offerFirst_ddsWord (w : Cmd) (s : State) : (offerFirst w s).ddsWord = s.ddsWord := rfl
@[simp] theorem offerFirst_wpm (w : Cmd) (s : State) : (offerFirst w s).wpm = s.wpm := rfl
@[simp] theorem offerFirst_dropCount (w : Cmd) (s : State) : (offerFirst w s).dropCount = s.dropCount := rfl
@[simp] theorem offerFirst_lookup (w : Cmd) (s : State) : (offerFirst w s).lookup = s.lookup := rfl
@[simp] theorem offerFirst_msg (w : Cmd) (s : State) : (offerFirst w s).msg = s.msg := rfl
@[simp] theorem offerFirst_lines (w : Cmd) (s : State) : (offerFirst w s).lines = s.lines := rfl
@[simp] theorem offerFirst_key (w : Cmd) (s : State) : (offerFirst w s).key = s.key := rfl
@[simp] theorem offerFirst_ind (w : Cmd) (s : State) : (offerFirst w s).ind = s.ind := rfl
@[simp] theorem offerFirst_seq (w : Cmd) (s : State) : (offerFirst w s).seq = s.seq := rfl
@[simp] theorem offerFirst_ddsTrace (w : Cmd) (s : State) : (offerFirst w s).ddsTrace = s.ddsTrace := rfl
@[simp] theorem offerFirst_keyTrace (w : Cmd) (s : State) : (offerFirst w s).keyTrace = s.keyTrace := rfl
@[simp] theorem offerFirst_cmdTrace (w : Cmd) (s : State) : (offerFirst w s).cmdTrace = s.cmdTrace := rfl
@[simp] theorem offerFirst_script (w : Cmd) (s : State) : (offerFirst w s).script = .command w :: s.script := rfl
@[simp] theorem offerFirst_cycle (w : Cmd) (s : State) : (offerFirst w s).cycle = s.cycle := rfl
@[simp] theorem offerFirst_tickGap (w : Cmd) (s : State) : (offerFirst w s).tickGap = s.tickGap := rfl

end Sys2Proof.Machine
end

