-- ==== Sys2Proof/Laws/Ops.lean ====
section
/-! SUPPORT. One lemma for each shared operation that says once everything it can do: the message buffer, a run
of phases, a run of segments, and a whole command. -/

namespace Sys2Proof.Machine

/-! ## The message buffer -/

theorem memRead_nil (i : Nat) : memRead [] i = none := rfl

/-- In canonical form every entry lies above the head. -/
theorem Memory.wf_cons {depth a : Nat} {b : Byte} {m : Memory} :
    Memory.wf depth ((a, b) :: m) = true ↔
      a < depth ∧ Memory.wf depth m = true ∧ ∀ c ∈ m, a < c.1 := by
  induction m generalizing a b with
  | nil => simp [Memory.wf]
  | cons d m ih =>
    obtain ⟨k, v⟩ := d
    simp only [Memory.wf, Bool.and_eq_true, decide_eq_true_eq]
    constructor
    · rintro ⟨h, hw⟩
      obtain ⟨h1, h2, h3⟩ := ih.mp hw
      refine ⟨h.trans h1, hw, ?_⟩
      rintro c (_ | ⟨_, hc⟩)
      · exact h
      · exact h.trans (h3 c hc)
    · rintro ⟨_, hw, h⟩
      exact ⟨h _ (List.mem_cons_self ..), hw⟩

theorem memRead_eq_none_of_lt {m : Memory} {i : Nat} (h : ∀ c ∈ m, i < c.1) : memRead m i = none := by
  induction m with
  | nil => rfl
  | cons d m ih =>
    obtain ⟨k, v⟩ := d
    have hk : i < k := h (k, v) (List.mem_cons_self ..)
    rw [memRead, if_neg (by omega), ih (fun c hc => h c (List.mem_cons_of_mem _ hc))]

/-- What a write leaves in the list: the new entry and the old ones. -/
theorem mem_memWrite {m : Memory} {i : Nat} {v : Byte} {c : Host.Cell} (h : c ∈ memWrite m i v) :
    c = (i, v) ∨ c ∈ m := by
  induction m with
  | nil => simpa [memWrite] using h
  | cons d m ih =>
    obtain ⟨k, w⟩ := d
    simp only [memWrite] at h
    split at h
    · simpa using h
    · split at h
      · rcases List.mem_cons.mp h with h | h
        · exact .inl h
        · exact .inr (List.mem_cons_of_mem _ h)
      · rcases List.mem_cons.mp h with h | h
        · exact .inr (h ▸ List.mem_cons_self ..)
        · exact (ih h).imp_right (List.mem_cons_of_mem _)

/-- Every operation on MSG keeps the canonical form. -/
theorem memWrite_wf {depth : Nat} {m : Memory} {i : Nat} {v : Byte} (hm : Memory.wf depth m = true) (hi : i < depth) :
    Memory.wf depth (memWrite m i v) = true := by
  induction m with
  | nil => simpa [memWrite, Memory.wf] using hi
  | cons d m ih =>
    obtain ⟨k, w⟩ := d
    obtain ⟨hk, hw, hall⟩ := Memory.wf_cons.mp hm
    simp only [memWrite]
    split
    · rename_i hlt
      refine Memory.wf_cons.mpr ⟨hi, hm, ?_⟩
      rintro c (_ | ⟨_, hc⟩)
      · exact hlt
      · exact hlt.trans (hall c hc)
    · split
      · rename_i heq
        subst heq
        exact Memory.wf_cons.mpr ⟨hi, hw, hall⟩
      · refine Memory.wf_cons.mpr ⟨hk, ih hw, fun c hc => ?_⟩
        rcases mem_memWrite hc with rfl | hc
        · show k < i
          omega
        · exact hall c hc

theorem reset_msg_wf (depth : Nat) : Memory.wf depth State.reset.msg = true := rfl

/-! ## Runs of phases and of segments -/

/-- The lines after a run of phases. -/
def linesEnd (cs : List LineChange) (l : DdsLines) : DdsLines := cs.foldl (fun l c => applyChange c l) l

@[simp] theorem phases_nil (s : State) : phases [] s = s := rfl

@[simp] theorem phases_cons (c : LineChange) (cs : List LineChange) (s : State) :
    phases (c :: cs) s = phases cs (phase c s) := rfl

/-- A run of phases changes the lines and the line trace, and nothing else. -/
theorem phases_eq (cs : List LineChange) (s : State) :
    phases cs s = { s with lines := linesEnd cs s.lines, ddsTrace := s.ddsTrace ++ linesAfter cs s.lines } := by
  induction cs generalizing s with
  | nil => simp [linesAfter, linesEnd]
  | cons c cs ih => simp [ih, linesAfter, linesEnd, phase]

@[simp] theorem emitAll_nil (s : State) : emitAll [] s = s := rfl

@[simp] theorem emitAll_cons (g : Segment) (gs : List Segment) (s : State) :
    emitAll (g :: gs) s = emitAll gs (emit g s) := rfl

/-- The key's level after a run of segments, from the level before it. -/
def levelEnd : Bool → List Segment → Bool
  | was, [] => was
  | _, g :: gs => levelEnd g.level gs

@[simp] theorem levelEnd_append_singleton (was : Bool) (gs : List Segment) (g : Segment) :
    levelEnd was (gs ++ [g]) = g.level := by
  induction gs generalizing was with
  | nil => rfl
  | cons h gs ih => exact ih _

/-- A run of segments changes the keying lines and the keying trace, and nothing else, when it starts with the
indicator following the key. -/
theorem emitAll_eq (gs : List Segment) (s : State) (h : s.ind = (s.key && s.indEn)) :
    emitAll gs s = { s with
      key := levelEnd s.key gs
      ind := levelEnd s.key gs && s.indEn
      keyTrace := s.keyTrace ++ gs.map (keyEventOf s.indEn) } := by
  induction gs generalizing s with
  | nil => simp [levelEnd, ← h]
  | cons g gs ih =>
    rw [emitAll_cons, ih _ (by simp)]
    simp [levelEnd, emit, keyEventOf]

/-! ## A whole command -/

/-- What a whole command can do: fault by its check, or have its effect and complete. -/
theorem runCommand_eq {opc : Byte} {check : Option FaultCode} {effect : State → State} {s : State} :
    (∃ code, check = some code ∧ runCommand opc check effect s = .next (takeFault code opc s)) ∨
      (check = none ∧ runCommand opc check effect s = .next (finish (effect s))) := by
  cases check <;> simp [runCommand]

/-- The effect of each command on the state once its checks have passed, in a build with parameters `P`. -/
def effectOf (P : Config.Params) : Instr → State → State
  | .ddsInit => fun s => setInitDone (phases initPhases s)
  | .ftwCalc f => writeTuning P f
  | .ftwLoad w => serialLoad w
  | .ftwTune f => fun s => serialLoad (tuningWord f P.refclkHz) (writeTuning P f s)
  | .morseWpm n => writeWpm n
  | .msgWr idx ch => writeMsg idx ch
  | .morseLookup ch => writeLookup P ch
  | .morseTx len => transmit P len
  | .ctrlSet indEn strict => writeCtrl indEn strict

/-- Every command is its checks, then its effect and its completion. -/
theorem execIn_eq (P : Config.Params) (i : Instr) (s : State) :
    execIn P i s = match checkInstr P i s with
      | some code => .next (takeFault code i.opcode s)
      | none => .next (finish (effectOf P i s)) := by
  cases i <;> rfl

/-- A meaning is the command at the parameters of this hardware. -/
theorem exec_eq_execIn (i : Instr) (s : State) : exec i s = execIn hardware i s := by
  cases i <;> rfl

/-- The same of this hardware's meanings. -/
theorem exec_eq (i : Instr) (s : State) :
    exec i s = match checkInstr hardware i s with
      | some code => .next (takeFault code i.opcode s)
      | none => .next (finish (effectOf hardware i s)) := by
  rw [exec_eq_execIn, execIn_eq]

/-- In every build a command answers a next state. -/
theorem execIn_next (P : Config.Params) (i : Instr) (s : State) : ∃ t, execIn P i s = .next t := by
  rw [execIn_eq]
  cases checkInstr P i s <;> exact ⟨_, rfl⟩

/-- A meaning always answers a next state. -/
theorem exec_next (i : Instr) (s : State) : ∃ t, exec i s = .next t := by
  rw [exec_eq_execIn]
  exact execIn_next hardware i s

/-! ## The parameters of this hardware -/

@[simp] theorem hardware_refclkHz : hardware.refclkHz = 125000000 := rfl
@[simp] theorem hardware_msgDepth : hardware.msgDepth = 256 := rfl
@[simp] theorem hardware_morseTable : hardware.morseTable = defaultMorseTable := rfl
@[simp] theorem hardwareBuild_toParams : hardwareBuild.toParams = hardware := rfl
@[simp] theorem hardwareBuild_platformTick : hardwareBuild.platformTick = Config.platformTick := rfl

/-- This hardware is a legal build, whatever its OPEN durations are (R7). -/
theorem hardwareBuild_legal : hardwareBuild.Legal :=
  ⟨⟨by decide, by decide, by decide, by decide, by decide +kernel⟩, Nat.le_add_left 1 _, Nat.le_add_left 1 _⟩

end Sys2Proof.Machine
end

