-- ==== Sys2Proof/Laws/Clock.lean ====
section
/-! SUPPORT. What a clock edge and a step can do, said once: the cases that every statement about runs goes
through. -/

namespace Sys2Proof.Machine

@[simp] theorem clockRun_nil (B : Config.Build) (s : State) : clockRun B [] s = s := rfl

@[simp] theorem clockRun_cons (B : Config.Build) (p : Pins) (ps : List Pins) (s : State) :
    clockRun B (p :: ps) s = clockRun B ps (clockEdge B p s) := rfl

theorem clockRun_append (B : Config.Build) (ps qs : List Pins) (s : State) :
    clockRun B (ps ++ qs) s = clockRun B qs (clockRun B ps s) := by
  simp [clockRun, List.foldl_append]

/-- A clock edge is a reset, an edge of the command in progress, an acceptance, or nothing (R22, R23, R187). -/
theorem blockEdge_cases (B : Config.Build) (p : Pins) (s : State) :
    (p.rst = true ∧ blockEdge B p s = resetBlock s) ∨
    (p.rst = false ∧ s.busy = true ∧ blockEdge B p s = busyEdge B p s) ∨
    (p.rst = false ∧ s.busy = false ∧ s.halted = false ∧ p.cmdValid = true ∧
      blockEdge B p s = accept p.cmdData s) ∨
    (p.rst = false ∧ s.busy = false ∧ (s.halted = true ∨ p.cmdValid = false) ∧ blockEdge B p s = s) := by
  cases hr : p.rst <;> cases hb : s.busy <;> cases hh : s.halted <;> cases hv : p.cmdValid <;>
    simp [blockEdge, cmdReady, hr, hb, hh, hv]

/-- A step that answers a next state is a clock edge or a transaction. -/
theorem stepBy_cases {run : Instr → State → Result} {B : Config.Build} {s t : State} (h : stepBy run B s = .next t) :
    sequencerConsistent B.toParams s = true ∧
    ((∃ p, p.rst = false ∧ p.tickMs = B.platformTick s.cycle ∧ t = clockEdge B p s ∧
        (s.script = [] ∨ ∃ w rest, s.script = .command w :: rest ∧ cmdReady s false = false)) ∨
      (∃ p rest, s.script = .edge p :: rest ∧ t = clockEdge B p (popScript s)) ∨
      (∃ w rest, s.script = .command w :: rest ∧ cmdReady s false = true ∧
        transactionBy run w (forgetTick (popScript s)) = .next t)) := by
  unfold stepBy at h
  split at h
  · rename_i hc
    refine ⟨hc, ?_⟩
    split at h
    · rename_i hs
      cases h
      exact .inl ⟨_, rfl, rfl, rfl, .inl hs⟩
    · rename_i p rest hs
      cases h
      exact .inr (.inl ⟨p, rest, hs, rfl⟩)
    · rename_i w rest hs
      split at h
      · rename_i hr
        exact .inr (.inr ⟨w, rest, hs, hr, h⟩)
      · rename_i hr
        cases h
        exact .inl ⟨_, rfl, rfl, rfl, .inr ⟨w, rest, hs, by simpa using hr⟩⟩
  · cases h

/-- The step of this hardware is that of its build. -/
theorem step_eq_stepIn (s : State) : step s = stepIn hardwareBuild s := by
  have : (exec : Instr → State → Result) = execIn hardware := funext fun i => funext fun s => exec_eq_execIn i s
  rw [step, stepIn, this]
  rfl

end Sys2Proof.Machine
end

