-- ==== Sys2Proof/Laws/Decode.lean ====
section
/-! SUPPORT. The fields of a packed command word, and the mask test of each row of the opcode table. -/

namespace Sys2Proof

/-- A word is its four fields (R80). -/
theorem pack_fields (c : Cmd) : packFields (fieldOpc c) (fieldB c) (fieldH c) (fieldW c) = c := by
  apply BitVec.eq_of_getLsbD_eq
  intro i hi
  simp only [packFields, fieldOpc, fieldB, fieldH, fieldW, BitVec.getLsbD_append, BitVec.getLsbD_extractLsb']
  by_cases h1 : i < 32
  · simp [h1]
  · by_cases h2 : i - 32 < 16
    · simp [h1, h2, show 32 + (i - 32) = i by omega]
    · by_cases h3 : i - 32 - 16 < 8
      · simp [h1, h2, h3, show 48 + (i - 32 - 16) = i by omega]
      · simp [h1, h2, h3, show i - 32 - 16 - 8 < 8 by omega, show 56 + (i - 32 - 16 - 8) = i by omega]

@[simp] theorem fieldOpc_pack (o b : Byte) (h : Half) (w : Word) : fieldOpc (packFields o b h w) = o := by
  apply BitVec.eq_of_getLsbD_eq
  intro i hi
  simp only [packFields, fieldOpc, BitVec.getLsbD_append, BitVec.getLsbD_extractLsb']
  simp [hi, show ¬ 56 + i < 32 by omega, show ¬ 56 + i - 32 < 16 by omega, show ¬ 56 + i - 32 - 16 < 8 by omega,
    show 56 + i - 32 - 16 - 8 = i by omega]

@[simp] theorem fieldB_pack (o b : Byte) (h : Half) (w : Word) : fieldB (packFields o b h w) = b := by
  apply BitVec.eq_of_getLsbD_eq
  intro i hi
  simp only [packFields, fieldB, BitVec.getLsbD_append, BitVec.getLsbD_extractLsb']
  simp [hi, show ¬ 48 + i < 32 by omega, show ¬ 48 + i - 32 < 16 by omega,
    show 48 + i - 32 - 16 = i by omega]

@[simp] theorem fieldH_pack (o b : Byte) (h : Half) (w : Word) : fieldH (packFields o b h w) = h := by
  apply BitVec.eq_of_getLsbD_eq
  intro i hi
  simp only [packFields, fieldH, BitVec.getLsbD_append, BitVec.getLsbD_extractLsb']
  simp [hi, show ¬ 32 + i < 32 by omega, show 32 + i - 32 = i by omega]

@[simp] theorem fieldW_pack (o b : Byte) (h : Half) (w : Word) : fieldW (packFields o b h w) = w := by
  apply BitVec.eq_of_getLsbD_eq
  intro i hi
  simp only [packFields, fieldW, BitVec.getLsbD_append, BitVec.getLsbD_extractLsb']
  simp [hi]

/-- The mask test of a row, field by field. -/
theorem and_pack (o b o' b' : Byte) (h h' : Half) (w w' : Word) :
    packFields o b h w &&& packFields o' b' h' w' = packFields (o &&& o') (b &&& b') (h &&& h') (w &&& w') := by
  apply BitVec.eq_of_getLsbD_eq
  intro i hi
  simp only [packFields, BitVec.getLsbD_and, BitVec.getLsbD_append]
  by_cases h1 : i < 32 <;> by_cases h2 : i - 32 < 16 <;> by_cases h3 : i - 32 - 16 < 8 <;> simp [h1, h2, h3]

/-- A row's pattern is its opcode over zero fields (R82). -/
theorem pattern_pack (r : OpcodeRow) : r.pattern = packFields r.opc 0#8 0#16 0#32 := by
  apply BitVec.eq_of_getLsbD_eq
  intro i hi
  simp only [OpcodeRow.pattern, packFields, BitVec.getLsbD_append]
  by_cases h1 : i < 32
  · simp [h1]; omega
  · by_cases h2 : i - 32 < 16
    · simp [h1, h2]; omega
    · by_cases h3 : i - 32 - 16 < 8
      · simp [h1, h2, h3]; omega
      · simp [h1, h2, h3, show ¬ i < 56 by omega, show i - 32 - 16 - 8 = i - 56 by omega]

/-- Two packed words are equal exactly when their fields are. -/
theorem pack_inj {o b o' b' : Byte} {h h' : Half} {w w' : Word} :
    packFields o b h w = packFields o' b' h' w' ↔ o = o' ∧ b = b' ∧ h = h' ∧ w = w' := by
  constructor
  · intro e
    exact ⟨by simpa using congrArg fieldOpc e, by simpa using congrArg fieldB e, by simpa using congrArg fieldH e,
      by simpa using congrArg fieldW e⟩
  · rintro ⟨rfl, rfl, rfl, rfl⟩
    rfl

end Sys2Proof
end

