-- ==== Sys2Proof/Laws/Ftw.lean ====
section
/-! SUPPORT. The line levels of the DDS sequences: the lines after each phase, as a function of the phase. -/

namespace Sys2Proof.Machine

theorem frame_eq (w : Word) : frame w = w.setWidth 40 := by
  apply BitVec.eq_of_toNat_eq
  rw [frame, BitVec.toNat_append, BitVec.toNat_setWidth]
  have := w.isLt
  simp [Config.ctrlByte]
  omega

/-- The control byte is zero, so bit 39 of a frame is 0 (R111). -/
theorem frame_top (w : Word) : (frame w).getLsbD 39 = false := by
  rw [frame_eq]; simp

/-- One phase of a serial load takes the lines of the phase before to those of its own. -/
theorem serialPhase_step (fr : Frame) {k : Nat} (hk : k + 1 ≤ 121) :
    applyChange (serialPhase fr (k + 1)) (serialLinesAt fr k) = serialLinesAt fr (k + 1) := by
  unfold serialPhase serialLinesAt
  by_cases h : k + 1 < 120
  · have h3 : (k + 1) % 3 = 0 ∨ (k + 1) % 3 = 1 ∨ (k + 1) % 3 = 2 := by omega
    have e : k < 120 := by omega
    rcases h3 with h3 | h3 | h3
    · have e1 : k % 3 = 2 := by omega
      have e2 : min ((k + 1) / 3) 39 = (k + 1) / 3 := by omega
      simp [h, h3, applyChange, e1, e2]; omega
    · have e1 : k % 3 = 0 := by omega
      have e2 : (k + 1) / 3 = k / 3 := by omega
      simp [h, h3, applyChange, e2]; omega
    · have e1 : k % 3 = 1 := by omega
      have e2 : (k + 1) / 3 = k / 3 := by omega
      simp [h, h3, applyChange, e2]; omega
  · have e : k = 119 ∨ k = 120 := by omega
    rcases e with rfl | rfl <;> simp [applyChange]

/-- S0 takes idle driven lines to its own levels. -/
theorem serialPhase_start (fr : Frame) (d : Bool) :
    applyChange (serialPhase fr 0) ⟨true, false, false, d, false⟩ = serialLinesAt fr 0 := by
  simp [serialPhase, serialLinesAt, applyChange]

/-- The lines after the phases S0 .. S(n). -/
theorem linesEnd_serial (fr : Frame) (d : Bool) {n : Nat} (hn : n ≤ 121) :
    linesEnd ((List.range (n + 1)).map (serialPhase fr)) ⟨true, false, false, d, false⟩ = serialLinesAt fr n := by
  induction n with
  | zero => exact serialPhase_start fr d
  | succ n ih =>
    have := ih (by omega)
    rw [linesEnd] at this ⊢
    rw [List.range_succ, List.map_append, List.foldl_append, this]
    exact serialPhase_step fr hn

theorem linesAfter_append (cs ds : List LineChange) (l : DdsLines) :
    linesAfter (cs ++ ds) l = linesAfter cs l ++ linesAfter ds (linesEnd cs l) := by
  induction cs generalizing l with
  | nil => rfl
  | cons c cs ih => simp [linesAfter, linesEnd, ih]

/-- The line trace of the phases S0 .. S(n). -/
theorem linesAfter_serial (fr : Frame) (d : Bool) {n : Nat} (hn : n ≤ 121) :
    linesAfter ((List.range (n + 1)).map (serialPhase fr)) ⟨true, false, false, d, false⟩ =
      (List.range (n + 1)).map (serialLinesAt fr) := by
  induction n with
  | zero => simp [linesAfter, List.range_succ, serialPhase_start]
  | succ n ih =>
    rw [List.range_succ, List.map_append, linesAfter_append, ih (by omega), linesEnd_serial fr d (by omega),
      List.map_append]
    simp [linesAfter, serialPhase_step fr hn]

/-- After S121 the lines are idle again (R112, D33). -/
theorem serialLinesAt_last (w : Word) : serialLinesAt (frame w) 121 = ⟨true, false, false, false, false⟩ := by
  have h : serialLinesAt (frame w) 121 = ⟨true, false, false, (frame w).getLsbD 39, false⟩ := rfl
  rw [h, frame_top]

/-- A whole load from idle driven lines: the 122 phases and `DDS_WORD`. -/
theorem serialLoad_eq (w : Word) (s : State) (d : Bool) (h : s.lines = ⟨true, false, false, d, false⟩) :
    serialLoad w s = { s with
      ddsWord := w
      lines := ⟨true, false, false, false, false⟩
      ddsTrace := s.ddsTrace ++ (List.range 122).map (serialLinesAt (frame w)) } := by
  have h1 := linesEnd_serial (frame w) d (le_refl 121)
  have h2 := linesAfter_serial (frame w) d (le_refl 121)
  rw [serialLinesAt_last] at h1
  rw [serialLoad, phases_eq, serialPhases, h, h1, h2]
  rfl

/-- The phases of DDS.INIT, from any lines. -/
theorem initPhases_eq (s : State) :
    phases initPhases s = { s with
      lines := ⟨true, false, false, false, false⟩
      ddsTrace := s.ddsTrace ++ [initLinesAt 0, initLinesAt 1, initLinesAt 2] } := by
  rw [phases_eq]
  rfl

end Sys2Proof.Machine
end

