-- ==== Sys2Proof/Laws/Morse.lean ====
section
/-! SUPPORT. The Morse family's operations: what a whole transmission does, when MORSE.TX passes its checks, and
where the keying sequencer goes when it skips dropped characters. -/

namespace Sys2Proof.Machine

theorem msgBytes_length_le (m : Memory) (len : Nat) : (msgBytes m len).length ≤ len :=
  (List.length_filterMap_le _ _).trans (by simp)

theorem dropTotal_le_length (t : MorseTable) (m : List Byte) : dropTotal t m ≤ m.length := List.countP_le_length

theorem dropTotal_take_le (t : MorseTable) (m : List Byte) (n : Nat) : dropTotal t (m.take n) ≤ dropTotal t m :=
  List.Sublist.countP_le (List.take_sublist _ _)

/-- MORSE.TX passes its checks exactly under the three conditions of R146. -/
theorem checkMorseTx_eq_none {P : Config.Params} {len : Nat} {s : State} :
    checkMorseTx P len s = none ↔ s.wpm ≠ 0#16 ∧ len ≤ P.msgDepth ∧ allValid s.msg len = true := by
  simp only [checkMorseTx, firstFault, decide_eq_true_eq, Bool.not_eq_true']
  split
  · simp [*]
  · split
    · rename_i h1 h2
      simp only [reduceCtorEq, false_iff]
      omega
    · split <;> simp_all

/-- The whole effect of MORSE.TX, field by field (R146, R150, R153). -/
theorem transmit_eq (P : Config.Params) (len : Nat) (s : State) :
    transmit P len s = { s with
      dropCount := BitVec.ofNat 16 (dropTotal P.morseTable (msgBytes s.msg len))
      key := false
      ind := false
      keyTrace := s.keyTrace ++
        (segs P.morseTable (msgBytes s.msg len) (unitMs s.wpm)).map (keyEventOf s.indEn) } := by
  unfold transmit
  rw [emitAll_eq _ _ (by simp)]
  simp [segs, tailSeg, setDropCount, clearForTx]

/-- Where a run of dropped characters ends: at a kept character or at the end of the message. -/
theorem skipDropped_spec (t : MorseTable) (m : List Byte) {i : Nat} (hi : i ≤ m.length) :
    i ≤ skipDropped t m i ∧ skipDropped t m i ≤ m.length ∧ classAt t m (skipDropped t m i) ≠ some .unsupported := by
  have key : ∀ l : List Byte,
      (l.takeWhile (fun c => classifyFolded t c == .unsupported)).length ≤ l.length ∧
      (l[(l.takeWhile (fun c => classifyFolded t c == .unsupported)).length]?).map
        (classifyFolded t) ≠ some .unsupported := by
    intro l
    induction l with
    | nil => simp
    | cons c l ih =>
      rw [List.takeWhile_cons]
      split
      · simpa using ih
      · rename_i h
        simpa using h
  obtain ⟨h1, h2⟩ := key (m.drop i)
  simp only [List.length_drop, List.getElem?_drop] at h1 h2
  exact ⟨by unfold skipDropped; omega, by unfold skipDropped; omega, h2⟩

/-- A legal speed gives a unit of at least 1 ms (R133). -/
theorem unitMs_pos {w : Half} (h0 : w ≠ 0#16) (h : w.toNat ≤ Config.wpmMax) : 1 ≤ unitMs w := by
  have hp : 0 < w.toNat := Nat.pos_of_ne_zero (fun e => h0 (BitVec.eq_of_toNat_eq (by simpa using e)))
  simp only [Config.wpmMax] at h
  simp only [unitMs, if_neg h0, Config.unitNum]
  exact (Nat.le_div_iff_mul_le hp).mpr (by omega)

end Sys2Proof.Machine
end

