-- ==== Sys2Proof/Laws/PerInstr.lean ====
section
/-! SUPPORT. Statements made for every instruction, one lemma for each constructor. -/

namespace Sys2Proof.Laws

/-- The opcode byte of a command's word is the command's opcode (R80, R82). -/
def OpcodeField.Statement (i : Instr) : Prop := fieldOpc (encode i) = i.opcode

theorem OpcodeField.ddsInit : OpcodeField.Statement .ddsInit := by simp [OpcodeField.Statement, encode]
theorem OpcodeField.ftwCalc (f : Nat) : OpcodeField.Statement (.ftwCalc f) := by
  simp [OpcodeField.Statement, encode]
theorem OpcodeField.ftwLoad (word : Word) : OpcodeField.Statement (.ftwLoad word) := by
  simp [OpcodeField.Statement, encode]
theorem OpcodeField.ftwTune (f : Nat) : OpcodeField.Statement (.ftwTune f) := by
  simp [OpcodeField.Statement, encode]
theorem OpcodeField.morseWpm (wpm : Nat) : OpcodeField.Statement (.morseWpm wpm) := by
  simp [OpcodeField.Statement, encode]
theorem OpcodeField.msgWr (idx : Nat) (ch : Byte) : OpcodeField.Statement (.msgWr idx ch) := by
  simp [OpcodeField.Statement, encode]
theorem OpcodeField.morseLookup (ch : Byte) : OpcodeField.Statement (.morseLookup ch) := by
  simp [OpcodeField.Statement, encode]
theorem OpcodeField.morseTx (len : Nat) : OpcodeField.Statement (.morseTx len) := by
  simp [OpcodeField.Statement, encode]
theorem OpcodeField.ctrlSet (indEn strict : Bool) : OpcodeField.Statement (.ctrlSet indEn strict) := by
  simp [OpcodeField.Statement, encode]

/-- A command's word is one that its row of the opcode table selects: `(c & mask) == match` (R82). -/
def RowMatch.Statement (i : Instr) : Prop :=
  ∃ r ∈ opcodeRows, r.opc = i.opcode ∧ encode i &&& r.mask = r.pattern

/-- A word packed under a row's opcode matches the row when the masked operand fields are zero. -/
theorem RowMatch.ofFields (r : OpcodeRow) (mb : Byte) (mh : Half) (mw : Word) (b : Byte) (h : Half) (w : Word)
    (hm : r.mask = packFields 0xFF#8 mb mh mw) (hb : b &&& mb = 0#8) (hh : h &&& mh = 0#16) (hw : w &&& mw = 0#32) :
    packFields r.opc b h w &&& r.mask = r.pattern := by
  rw [hm, and_pack, pattern_pack, hb, hh, hw, show r.opc &&& 0xFF#8 = r.opc from BitVec.and_allOnes]

theorem RowMatch.ddsInit : RowMatch.Statement .ddsInit :=
  ⟨opcodeRows[0], List.getElem_mem _, rfl,
    RowMatch.ofFields opcodeRows[0] 0xFF#8 0xFFFF#16 0xFFFFFFFF#32 _ _ _ (by decide) (by decide) (by decide) (by decide)⟩
theorem RowMatch.ftwCalc (f : Nat) : RowMatch.Statement (.ftwCalc f) :=
  ⟨opcodeRows[1], List.getElem_mem _, rfl,
    RowMatch.ofFields opcodeRows[1] 0xFF#8 0xFFFF#16 0#32 _ _ _ (by decide) (by decide) (by decide) (by simp)⟩
theorem RowMatch.ftwLoad (word : Word) : RowMatch.Statement (.ftwLoad word) :=
  ⟨opcodeRows[2], List.getElem_mem _, rfl,
    RowMatch.ofFields opcodeRows[2] 0xFF#8 0xFFFF#16 0#32 _ _ _ (by decide) (by decide) (by decide) (by simp)⟩
theorem RowMatch.ftwTune (f : Nat) : RowMatch.Statement (.ftwTune f) :=
  ⟨opcodeRows[3], List.getElem_mem _, rfl,
    RowMatch.ofFields opcodeRows[3] 0xFF#8 0xFFFF#16 0#32 _ _ _ (by decide) (by decide) (by decide) (by simp)⟩
theorem RowMatch.morseWpm (wpm : Nat) : RowMatch.Statement (.morseWpm wpm) :=
  ⟨opcodeRows[4], List.getElem_mem _, rfl,
    RowMatch.ofFields opcodeRows[4] 0xFF#8 0#16 0xFFFFFFFF#32 _ _ _ (by decide) (by decide) (by simp) (by decide)⟩
theorem RowMatch.msgWr (idx : Nat) (ch : Byte) : RowMatch.Statement (.msgWr idx ch) :=
  ⟨opcodeRows[5], List.getElem_mem _, rfl,
    RowMatch.ofFields opcodeRows[5] 0#8 0#16 0xFFFFFFFF#32 _ _ _ (by decide) (by simp) (by simp) (by decide)⟩
theorem RowMatch.morseLookup (ch : Byte) : RowMatch.Statement (.morseLookup ch) :=
  ⟨opcodeRows[6], List.getElem_mem _, rfl,
    RowMatch.ofFields opcodeRows[6] 0#8 0xFFFF#16 0xFFFFFFFF#32 _ _ _ (by decide) (by simp) (by decide) (by decide)⟩
theorem RowMatch.morseTx (len : Nat) : RowMatch.Statement (.morseTx len) :=
  ⟨opcodeRows[7], List.getElem_mem _, rfl,
    RowMatch.ofFields opcodeRows[7] 0xFF#8 0#16 0xFFFFFFFF#32 _ _ _ (by decide) (by decide) (by simp) (by decide)⟩
theorem RowMatch.ctrlSet (indEn strict : Bool) : RowMatch.Statement (.ctrlSet indEn strict) :=
  ⟨opcodeRows[8], List.getElem_mem _, rfl,
    RowMatch.ofFields opcodeRows[8] 0xFC#8 0xFFFF#16 0xFFFFFFFF#32 _ _ _ (by decide)
      (by cases indEn <;> cases strict <;> decide) (by decide) (by decide)⟩

end Sys2Proof.Laws
end

