-- ==== Sys2Proof/Tests/Slice0.lean ====
section
/-! SUPPORT. Small tests with expected values from spec/95_test_vectors.md and the rules, and for every obligation
with hypotheses a witness that meets them all. -/

open Sys2Proof Sys2Proof.Machine

namespace Sys2Proof.Tests

/-! ## Helpers -/

/-- After DDS.INIT. -/
def bootState : State := { State.reset with initDone := true, lines := ⟨true, false, false, false, false⟩ }

/-- At 20 words per minute with the message `e t?` of program P3, `IND_EN` set. -/
def speedState : State :=
  { State.reset with
    indEn := true, wpm := 20#16, msg := [(0, 0x65#8), (1, 0x20#8), (2, 0x74#8), (3, 0x3F#8)] }

/-- `STRICT` set. -/
def strictState : State := { State.reset with strict := true }

/-- Halted by the illegal opcode 0x05 (V12). -/
def haltedState : State := takeFault .illegalOpcode 0x05#8 State.reset

/-- The state a transaction leaves. -/
def after (w : Cmd) (s : State) : State :=
  match transactionBy exec w s with
  | .next t => t
  | _ => s

/-- This hardware at the shortest legal timing: every duration 1, the check one cycle, no close tick counted. -/
def fastBuild : Config.Build :=
  { hardware with
    phaseCycles := 1, calcCycles := 1, checkEnds := fun _ => true, tickTaken := fun _ => false,
    dropLead := fun _ => 0, platformTick := fun _ => false }

/-- The same with a check step of two cycles. -/
def slowCheckBuild : Config.Build := { fastBuild with checkEnds := fun n => decide (2 ≤ n) }

/-- A small build with another clock, a buffer of two entries and a dictionary whose `A` is a dash. -/
def smallParams : Config.Params := ⟨3, 2, defaultMorseTable.map (fun e => if e.1 = 0x41#8 then (e.1, [.dash]) else e)⟩

/-- No pin set. -/
def quiet : Pins := quietPins false

/-- A reset edge. -/
def resetPins : Pins := ⟨true, false, 0#64, false⟩

/-! ## WellFormed: each check refuses an ill-formed term, one past the end of its field -/

theorem test_wf_ftwCalc : (Instr.ftwCalc 4294967296).wellFormed = false ∧
    (Instr.ftwCalc 4294967295).wellFormed = true := by
  decide

theorem test_wf_ftwTune : (Instr.ftwTune 4294967296).wellFormed = false ∧
    (Instr.ftwTune 4294967295).wellFormed = true := by
  decide

theorem test_wf_morseWpm : (Instr.morseWpm 65536).wellFormed = false ∧
    (Instr.morseWpm 65535).wellFormed = true := by
  decide

theorem test_wf_msgWr : (Instr.msgWr 65536 0x41#8).wellFormed = false ∧
    (Instr.msgWr 65535 0x41#8).wellFormed = true := by
  decide

theorem test_wf_morseTx : (Instr.morseTx 65536).wellFormed = false ∧
    (Instr.morseTx 65535).wellFormed = true := by
  decide

/-! ## Decode: words written out from the encoding of R82, R89 and V12 -/

theorem test_decode_ddsInit : decode 0x0100000000000000#64 = .ok .ddsInit := by decide

theorem test_decode_ftwCalc : decode 0x0200000000D714F0#64 = .ok (.ftwCalc 14095600) := by decide

theorem test_decode_ftwLoad : decode 0x030000001CDE2768#64 = .ok (.ftwLoad 0x1CDE2768#32) := by decide

theorem test_decode_ftwTune : decode 0x04000000042C1D80#64 = .ok (.ftwTune 70000000) := by decide

theorem test_decode_morseWpm : decode 0x100004B000000000#64 = .ok (.morseWpm 1200) := by decide

theorem test_decode_msgWr : decode 0x114100FF00000000#64 = .ok (.msgWr 255 0x41#8) := by decide

theorem test_decode_morseLookup : decode 0x1253000000000000#64 = .ok (.morseLookup 0x53#8) := by decide

theorem test_decode_morseTx : decode 0x1300010100000000#64 = .ok (.morseTx 257) := by decide

theorem test_decode_ctrlSet :
    decode 0x2001000000000000#64 = .ok (.ctrlSet true false) ∧
      decode 0x2002000000000000#64 = .ok (.ctrlSet false true) := by decide

theorem test_decode_illegal :
    [0x0000000000000000#64, 0x0500000000000000#64, 0xFFFFFFFFFFFFFFFF#64, 0x05FF000000000000#64].all
      (fun w => decide (decode w = .error .illegalOpcode)) = true := by decide

theorem test_decode_reserved :
    [0x0100000000000001#64, 0x0201000003B9ACA0#64, 0x1000001400000001#64, 0x1341000300000000#64,
        0x1241000100000000#64, 0x2004000000000000#64, 0x2000000000000001#64].all
      (fun w => decide (decode w = .error .reservedField)) = true := by decide

/-- The numbering of the opcode table: bit 0 is `cmd_data[0]`. -/
theorem test_decodeTableWord : decodeTableWord 64 0x114F000100000000 = some (.msgWr 1 0x4F#8) := by decide

/-! ## One step from a small state -/

/-- V4 and P1: STATUS after DDS.INIT. -/
theorem test_ddsInit : rdData (after 0x0100000000000000#64 State.reset) 0 = 0x2#32 := by decide

/-- V4: a second DDS.INIT faults, with no phase. -/
theorem test_ddsInit_again :
    rdData (after 0x0100000000000000#64 bootState) 0 = 0x14A#32 ∧
      (after 0x0100000000000000#64 bootState).ddsTrace = [] := by decide

/-- V1 (E3 as corrected, and the rows about half the clock and the clock). -/
theorem test_ftwCalc :
    ∀ e ∈ [(0, 0x00000000#32, false), (1, 0x00000022#32, false), (14095600, 0x1CDE2768#32, false),
        (62499999, 0x7FFFFFDD#32, false), (62500000, 0x80000000#32, true), (124999999, 0xFFFFFFDD#32, true),
        (125000000, 0x00000000#32, true), (139095600, 0x1CDE2768#32, true), (4294967295, 0x5C17D02B#32, true)],
      (after (encode (.ftwCalc e.1)) State.reset).ftw = e.2.1 ∧
        (after (encode (.ftwCalc e.1)) State.reset).oor = e.2.2 := by decide +kernel

/-- V2: the strict range check. -/
theorem test_ftwCalc_strict :
    rdData (after 0x0200000003B9ACA0#64 strictState) 0 = 0x258#32 ∧
      (after 0x0200000003B9AC9F#64 strictState).ftw = 0x7FFFFFDD#32 := by decide

/-- V6: before DDS.INIT. -/
theorem test_ftwLoad_not_init : rdData (after 0x030000001CDE2768#64 State.reset) 0 = 0x338#32 := by decide

/-- V5: the lines in phases S9, S10 and S120. -/
theorem test_ftwLoad_phases :
    ([9, 10, 120].map fun k => (after 0x030000001CDE2768#64 bootState).ddsTrace[k]?) =
      [some ⟨true, false, false, true, false⟩, some ⟨true, true, false, true, false⟩,
        some ⟨true, false, true, false, false⟩] := by decide +kernel

/-- V6: `NOT_INIT` comes before `FREQ_RANGE`. -/
theorem test_ftwTune_order :
    rdData (after 0x04000000042C1D80#64 strictState) 0 = 0x438#32 ∧
      rdData (after 0x04000000042C1D80#64 { bootState with strict := true }) 0 = 0x45A#32 := by decide

/-- P5: the alias loads the word of P1 and sets `OOR`. -/
theorem test_ftwTune_alias :
    rdData (after 0x04000000084A6E30#64 bootState) 0 = 0x6#32 ∧
      rdData (after 0x04000000084A6E30#64 bootState) 3 = 0x1CDE2768#32 := by decide

/-- V7. -/
theorem test_morseWpm : rdData (after 0x1000000700000000#64 State.reset) 5 = 171#32 := by decide

/-- V7: 0 and 1201 are no speeds. -/
theorem test_morseWpm_range :
    rdData (after 0x1000000000000000#64 State.reset) 0 = 0x1068#32 ∧
      rdData (after 0x100004B100000000#64 State.reset) 0 = 0x1068#32 := by decide

/-- V10: the last entry. -/
theorem test_msgWr : memRead (after 0x114100FF00000000#64 State.reset).msg 255 = some 0x41#8 := by decide

/-- V10: one past the last entry. -/
theorem test_msgWr_range : rdData (after 0x1141010000000000#64 State.reset) 0 = 0x1178#32 := by decide

/-- R131's column LOOKUP, in the rule's order `0`-`9`, `A`-`Z`. -/
theorem test_morseLookup_table :
    morseKeys.map (fun c => lookupValue (classify defaultMorseTable c)) =
      ([0x3F6, 0x3D6, 0x396, 0x316, 0x216, 0x016, 0x036, 0x076, 0x0F6, 0x1F6] ++
        [0x04A, 0x032, 0x0B2, 0x02E, 0x006, 0x092, 0x06E, 0x012, 0x00A, 0x1D2, 0x0AE, 0x052, 0x06A] ++
        [0x02A, 0x0EE, 0x0D2, 0x172, 0x04E, 0x00E, 0x026, 0x08E, 0x112, 0x0CE, 0x132, 0x1B2, 0x072] :
          List (BitVec 32)) := by decide

/-- V8: `A`, space, and the unsupported `a`. -/
theorem test_morseLookup :
    rdData (after 0x1241000000000000#64 State.reset) 7 = 0x04A#32 ∧
      rdData (after 0x1220000000000000#64 State.reset) 7 = 0x001#32 ∧
      rdData (after 0x1261000000000000#64 State.reset) 7 = 0x000#32 := by decide

/-- P3: folding, a space and a dropped character. -/
theorem test_morseTx :
    (after 0x1300000400000000#64 speedState).keyTrace =
      [⟨true, 60, true⟩, ⟨false, 60, false⟩, ⟨false, 120, false⟩, ⟨false, 240, false⟩, ⟨true, 180, true⟩,
        ⟨false, 60, false⟩, ⟨false, 120, false⟩, ⟨false, 1000, false⟩] ∧
      rdData (after 0x1300000400000000#64 speedState) 6 = 1#32 := by decide

/-- V10: an entry that was never written, and the order of the checks. -/
theorem test_morseTx_faults :
    rdData (after 0x1300000500000000#64 speedState) 0 = 0x1388#32 ∧
      rdData (after 0x1300010100000000#64 speedState) 0 = 0x1378#32 ∧
      rdData (after 0x1300010100000000#64 State.reset) 0 = 0x1368#32 := by decide

/-- V11. -/
theorem test_ctrlSet : rdData (after 0x2002000000000000#64 State.reset) 1 = 0x2#32 := by decide

/-- V11: a reserved bit. -/
theorem test_ctrlSet_reserved :
    rdData (after 0x2004000000000000#64 speedState) 0 = 0x2028#32 ∧
      rdData (after 0x2004000000000000#64 speedState) 1 = 0x1#32 := by decide

/-- The interface: a word placed for the fetch is run by the very next step. -/
theorem test_withFetchWord :
    ∃ t, step (State.reset.withFetchWord 64 0x0200000000D714F0) = .next t ∧ t.ftw = 0x1CDE2768#32 :=
  ⟨_, rfl, by decide⟩

/-! ## The assembler (R87, R88) -/

theorem test_asm_msgWr : assembleText hardware "MSG.WR 1, 'O' ; comment" = some [0x114F000100000000#64] := by decide

theorem test_asm_send :
    assembleText hardware "MORSE.SEND \"SO\"" =
      some [0x1153000000000000#64, 0x114F000100000000#64, 0x1300000200000000#64] := by decide

/-- A text ends at the first double quote (log entry 21). -/
theorem test_asm_quote :
    assembleText hardware "MORSE.SEND \"A\"B\"" = none ∧
      assembleText hardware "MSG.WR 0, '\"'" = some [0x1122000000000000#64] := by decide

theorem test_asm_mhz : assembleText hardware "FTW.TUNE.MHZ 14" = some [0x0400000000D59F80#64] := by decide

theorem test_asm_refused :
    assembleText hardware "MORSE.WPM 65536" = none ∧ assembleText hardware "FTW.TUNE.MHZ 4295" = none ∧
      assembleText hardware "CTRL.SET 2, 0" = none := by decide

/-! ## Witnesses: states and operands that meet the hypotheses of each obligation -/

/-- The invariant of an idle state that no command has halted. -/
theorem idle_inv (P : Config.Params) (s : State) (hq : s.seq = Sequencer.idle) (hb : s.busy = false)
    (hm : Memory.wf P.msgDepth s.msg = true) (hw : s.wpm.toNat ≤ 1200) (hl : s.lookup = 0#32) (hd : s.dropCount = 0#16)
    (hf : s.halted = false ∧ s.faultCode = .none ∧ s.faultOpc = 0x00#8)
    (ho : s.lines = ⟨s.initDone, false, false, false, false⟩) (hk : s.key = false ∧ s.ind = false)
    (hg : s.tickGap ≤ tickGapMax) : MachineInv P s := by
  obtain ⟨h1, h2, h3⟩ := hf
  constructor <;>
    simp [hq, hb, hm, hl, hd, h1, h2, h3, ho, hk.1, hk.2, hg, sequencerConsistent, Sequencer.idle, LookupLegal,
      linesExpected, keyExpected, Config.wpmMax, hw]

theorem boot_inv : MachineInv hardware bootState := by
  apply idle_inv <;> decide

theorem speed_inv : MachineInv hardware speedState := by
  apply idle_inv <;> decide

theorem strict_inv : MachineInv hardware strictState := by
  apply idle_inv <;> decide

/-- The invariant does not look at the inputs to come. -/
theorem inv_script {P : Config.Params} {s : State} (l : List HostInput) (h : MachineInv P s) :
    MachineInv P { s with script := l } := by
  obtain ⟨a, b, c, d, e, f, g, i, j, k, m, n, o, p⟩ := h
  exact ⟨a, b, c, d, e, f, g, i, j, k, m, n, o, p⟩

theorem halted_inv : MachineInv hardware haltedState := by
  constructor <;>
    first
    | decide
    | exact .inl rfl

/-- Serial load of the word 1, in phase S0. -/
def serialState : State :=
  clockEdge fastBuild quiet (clockEdge fastBuild (offerPins 0x0300000000000001#64 false) bootState)

/-- MORSE.TX 4, waiting for its alignment tick. -/
def txState : State :=
  clockEdge fastBuild quiet (clockEdge fastBuild (offerPins 0x1300000400000000#64 false) speedState)

theorem serial_inv : MachineInv hardware serialState := by
  constructor <;>
    first
    | decide +kernel
    | exact .inl rfl

theorem tx_inv : MachineInv hardware txState := by
  constructor <;>
    first
    | decide +kernel
    | exact .inl rfl

theorem fast_legal : fastBuild.Legal := by
  unfold Config.Build.Legal Config.Params.Legal
  decide +kernel

/-- The default dictionary is legal (R131). -/
theorem default_table_legal : legalTable defaultMorseTable = true := by decide +kernel

theorem witness_DecodeOfEncode :
    [Instr.ddsInit, .ftwCalc 4294967295, .ftwLoad 0xFFFFFFFF#32, .ftwTune 0, .morseWpm 65535, .msgWr 65535 0xFF#8,
      .morseLookup 0x00#8, .morseTx 65535, .ctrlSet true false].all Instr.wellFormed = true := by decide

theorem witness_EncodeOfDecode : decode 0x1300000300000000#64 = .ok (.morseTx 3) := by decide

/-- Each row of the reserved-field clause, and an illegal opcode beside two legal ones. -/
theorem witness_DecodeFaultsExactly :
    (fieldOpc 0x0500000000000000#64 = 0x05#8 ∧ decode 0x0500000000000000#64 = .error .illegalOpcode) ∧
      [0x0100000000000001#64, 0x0200000100000000#64, 0x0301000000000000#64, 0x0400800000000000#64,
          0x1000000000000001#64, 0x1380000000000000#64, 0x1100000080000000#64, 0x1200000100000000#64,
          0x2004000000000000#64].all (fun w => decide (decode w = .error .reservedField)) = true := by decide

theorem witness_ExampleWords : decode 0x114F000100000000#64 = .ok (.msgWr 1 0x4F#8) := by decide

/-- The bounds of every numeric form, the raw word, and the empty, the longest, a too long and a non-ASCII text. -/
theorem witness_AssemblerEmitsCommands :
    hardware.msgDepth ≤ 65535 ∧ assemble hardware (.msgWr 65535 255) = some [0x11FFFFFF00000000#64] ∧
      assemble hardware (.msgWr 65536 255) = none ∧ assemble hardware (.msgWr 0 256) = none ∧
      assemble hardware (.ftwCalc 4294967295) = some [0x02000000FFFFFFFF#64] ∧
      assemble hardware (.ftwCalc 4294967296) = none ∧ assemble hardware (.ftwLoad 4294967296) = none ∧
      assemble hardware (.ftwTune 4294967295) = some [0x04000000FFFFFFFF#64] ∧
      assemble hardware (.ftwTune 4294967296) = none ∧
      assemble hardware (.morseWpm 65535) = some [0x1000FFFF00000000#64] ∧
      assemble hardware (.morseWpm 65536) = none ∧ assemble hardware (.morseLookup 256) = none ∧
      assemble hardware (.morseTx 65536) = none ∧ assemble hardware (.ctrlSet 1 1) = some [0x2003000000000000#64] ∧
      assemble hardware (.ctrlSet 0 2) = none ∧ assemble hardware (.ctrlChecked 2) = none ∧
      assemble hardware (.ftwTuneMhz 4294) = some [0x04000000FFF13D80#64] ∧
      assemble hardware (.ftwTuneMhz 4295) = none ∧
      ((∀ c ∈ ([] : List Nat), c < 128) ∧ ([] : List Nat).length ≤ hardware.msgDepth) ∧
      ((∀ c ∈ List.replicate 256 127, c < 128) ∧ (List.replicate 256 127).length ≤ hardware.msgDepth) ∧
      hardware.msgDepth < (List.replicate 257 127).length ∧ ∃ c ∈ [128], 128 ≤ c := by decide +kernel

theorem witness_StepRunsDecodedCommand :
    ∃ s : State, MachineInv hardware s ∧ Ready s ∧ s.script = .command 0x0200000000D714F0#64 :: [] ∧
      decode 0x0200000000D714F0#64 = .ok (.ftwCalc 14095600) :=
  ⟨{ bootState with script := [.command 0x0200000000D714F0#64] }, inv_script _ boot_inv, ⟨rfl, rfl⟩, rfl, by decide⟩

theorem witness_StepFaultsOtherWords :
    ∃ s : State, MachineInv hardware s ∧ Ready s ∧ s.script = .command 0x0500000000000000#64 :: [] ∧
      decode 0x0500000000000000#64 = .error .illegalOpcode ∧
      decode 0x0100000000000001#64 = .error .reservedField :=
  ⟨{ bootState with script := [.command 0x0500000000000000#64] }, inv_script _ boot_inv, ⟨rfl, rfl⟩, rfl, by decide,
    by decide⟩

/-- An edge that accepts, and edges that do not: nothing offered, a busy block, a halted block, a reset edge. -/
theorem witness_AcceptanceEdge :
    MachineInv hardware bootState ∧ MachineInv hardware serialState ∧ MachineInv hardware haltedState ∧
      ((offerPins 0#64 false).cmdValid = true ∧ bootState.busy = false ∧ bootState.halted = false ∧
        (offerPins 0#64 false).rst = false) ∧
      quiet.cmdValid = false ∧ serialState.busy = true ∧ haltedState.halted = true ∧ resetPins.rst = true :=
  ⟨boot_inv, serial_inv, halted_inv, by decide, by decide, by decide +kernel, by decide, by decide⟩

theorem witness_EdgesIgnored : serialState.busy = true ∧ haltedState.busy = false ∧ bootState.busy = false := by
  decide +kernel

theorem witness_DdsInitCompletes : State.reset.initDone = false := by decide

/-- The last frequency in range under `STRICT`, and the first out of range without it. -/
theorem witness_FtwCalcCompletes :
    (strictState.strict = true → 2 * 62499999 < 125000000) ∧ (bootState.strict = true → 2 * 62500000 < 125000000) := by
  decide

theorem witness_FtwLoadCompletes :
    bootState.initDone = true ∧ bootState.lines = ⟨true, false, false, false, false⟩ := by decide

theorem witness_FtwTuneCompletes :
    bootState.initDone = true ∧ (bootState.strict = true → 2 * 4294967295 < 125000000) ∧
      bootState.lines = ⟨true, false, false, false, false⟩ := by decide

theorem witness_TuneIsCalcThenLoad :
    Admitted (.ftwTune 14095600) bootState ∧ ∃ t, exec (.ftwCalc 14095600) bootState = .next t ∧
      ∃ u, exec (.ftwLoad t.ftw) t = .next u :=
  ⟨by unfold Admitted; decide, _, rfl, _, rfl⟩

theorem witness_MorseWpmCompletes : (1 ≤ 1 ∧ 1 ≤ 1200) ∧ (1 ≤ 1200 ∧ 1200 ≤ 1200) := by decide

theorem witness_MsgWrCompletes :
    memRead (after 0x114100FF00000000#64 speedState).msg 255 = some 0x41#8 ∧
      memRead (after 0x114100FF00000000#64 speedState).msg 0 = some 0x65#8 := by decide

/-- The empty message and one of four characters. -/
theorem witness_MorseTxCompletes :
    speedState.wpm ≠ 0#16 ∧ [0x65#8, 0x20#8, 0x74#8, 0x3F#8].length ≤ 256 ∧
      (∀ (i : Nat) (h : i < [0x65#8, 0x20#8, 0x74#8, 0x3F#8].length),
        memRead speedState.msg i = some [0x65#8, 0x20#8, 0x74#8, 0x3F#8][i]) ∧
      (∀ (i : Nat) (h : i < ([] : List Byte).length), memRead speedState.msg i = some ([] : List Byte)[i]) := by
  refine ⟨by decide, by decide, ?_, fun i h => absurd h (by simp)⟩
  intro i h
  match i, h with
  | 0, _ => rfl
  | 1, _ => rfl
  | 2, _ => rfl
  | 3, _ => rfl

/-- A small legal build: each of its three parameters changes what a command does. -/
theorem witness_CommandsTakeParameters :
    smallParams.Legal ∧ checkInstr smallParams (.msgWr 1 0x41#8) speedState = none ∧
      checkInstr smallParams (.msgWr 2 0x41#8) speedState = some .msgRange ∧
      checkInstr smallParams (.ftwCalc 1) strictState = none ∧
      checkInstr smallParams (.ftwCalc 2) strictState = some .freqRange ∧
      checkInstr smallParams (.morseTx 2) speedState = none ∧ [0x65#8, 0x20#8].length ≤ smallParams.msgDepth ∧
      tuningWord 1 smallParams.refclkHz = 0x55555555#32 ∧
      classify smallParams.morseTable 0x41#8 = .pattern [.dash] := by
  refine ⟨?_, ?_⟩
  · unfold Config.Params.Legal
    decide +kernel
  · decide +kernel

/-- Each clause on both sides of its bound. -/
theorem witness_FaultsInOrder :
    checkInstr hardware .ddsInit bootState = some .reinit ∧ checkInstr hardware .ddsInit strictState = none ∧
      checkInstr hardware (.ftwCalc 62500000) strictState = some .freqRange ∧
      checkInstr hardware (.ftwCalc 62499999) strictState = none ∧
      checkInstr hardware (.ftwLoad 0#32) strictState = some .notInit ∧
      checkInstr hardware (.ftwLoad 0#32) bootState = none ∧
      checkInstr hardware (.ftwTune 62500000) strictState = some .notInit ∧
      checkInstr hardware (.ftwTune 62500000) bootState = none ∧
      checkInstr hardware (.morseWpm 0) bootState = some .wpmRange ∧
      checkInstr hardware (.morseWpm 1) bootState = none ∧
      checkInstr hardware (.morseWpm 1200) bootState = none ∧
      checkInstr hardware (.morseWpm 1201) bootState = some .wpmRange ∧
      checkInstr hardware (.msgWr 255 0#8) bootState = none ∧
      checkInstr hardware (.msgWr 256 0#8) bootState = some .msgRange ∧
      checkInstr hardware (.morseTx 257) bootState = some .wpmRange ∧
      checkInstr hardware (.morseTx 257) speedState = some .msgRange ∧
      checkInstr hardware (.morseTx 256) speedState = some .msgUnwritten ∧
      checkInstr hardware (.morseTx 4) speedState = none ∧
      checkInstr hardware (.morseTx 5) speedState = some .msgUnwritten := by decide +kernel

theorem witness_FaultsArePrecise : checkInstr hardware (.morseTx 5) speedState = some .msgUnwritten := by decide

/-- A halted block: a quiet edge, an offered word, and an edge that ticks. -/
theorem witness_HaltedUntilReset :
    MachineInv hardware haltedState ∧ haltedState.halted = true ∧ (∃ t, step haltedState = .next t) ∧
      (∃ t, step { haltedState with script := [.command 0x0100000000000000#64] } = .next t) ∧
      (∃ t, step { haltedState with script := [.edge (quietPins true)] } = .next t) ∧ (quietPins true).rst = false :=
  ⟨halted_inv, rfl, ⟨_, rfl⟩, ⟨_, rfl⟩, ⟨_, rfl⟩, rfl⟩

/-- One command of each family completes; a fault is a next state too. -/
theorem witness_FtwFamilyFrame :
    (∃ t, exec .ddsInit speedState = .next t) ∧ (∃ t, exec (.ftwCalc 62500000) speedState = .next t) ∧
      (∃ t, exec (.ftwLoad 1#32) bootState = .next t) ∧ (∃ t, exec (.ftwTune 62500000) bootState = .next t) :=
  ⟨⟨_, rfl⟩, ⟨_, rfl⟩, ⟨_, rfl⟩, ⟨_, rfl⟩⟩

theorem witness_FtwRegistersFrame :
    Admitted .ddsInit speedState ∧ Admitted (.ftwCalc 62499999) strictState ∧ Admitted (.ftwLoad 1#32) bootState ∧
      Admitted (.ftwTune 1) bootState := by
  unfold Admitted
  decide

theorem witness_MorseAndControlFrame :
    Admitted (.morseWpm 1200) speedState ∧ Admitted (.msgWr 255 0x41#8) speedState ∧
      Admitted (.morseTx 4) speedState ∧ (∃ t, exec (.morseWpm 1200) speedState = .next t) ∧
      (∃ t, exec (.msgWr 255 0x41#8) speedState = .next t) ∧ (∃ t, exec (.morseLookup 0x41#8) speedState = .next t) ∧
      (∃ t, exec (.morseTx 4) speedState = .next t) ∧ ∃ t, exec (.ctrlSet true true) speedState = .next t := by
  refine ⟨?_, ?_, ?_, ⟨_, rfl⟩, ⟨_, rfl⟩, ⟨_, rfl⟩, ⟨_, rfl⟩, ⟨_, rfl⟩⟩ <;> unfold Admitted <;> decide

theorem witness_PathsAreIndependent :
    Admitted (.ftwCalc 14095600) speedState ∧ Admitted (.morseTx 4) speedState ∧
      ∃ t₁ u₁ t₂ u₂, exec (.ftwCalc 14095600) speedState = .next t₁ ∧ exec (.morseTx 4) t₁ = .next u₁ ∧
        exec (.morseTx 4) speedState = .next t₂ ∧ exec (.ftwCalc 14095600) t₂ = .next u₂ := by
  refine ⟨?_, ?_, _, _, _, _, rfl, rfl, rfl, rfl⟩ <;> unfold Admitted <;> decide

theorem witness_TuningWordAliases :
    tuningWord 139095600 125000000 = 0x1CDE2768#32 ∧ tuningWord 1 1 = 0#32 ∧
      tuningWord 4294967295 125000000 = 0x5C17D02B#32 := by decide

/-- V1b: an even clock, an odd one, the smallest and the largest clock. -/
theorem witness_TuningWordAtHalfClock :
    tuningWord 5000000 10000000 = 0x80000000#32 ∧ (tuningWord 62500000 125000001).toNat = 2 ^ 31 - 18 ∧
      (tuningWord 62500001 125000001).toNat = 2 ^ 31 + 17 ∧ tuningWord 1 3 = 0x55555555#32 ∧
      tuningWord 2147483648 4294967295 = 0x80000000#32 := by decide

theorem witness_TuningErrorBelowOneStep : 1 ≤ 125000000 ∧ 125000000 < 2 ^ 32 ∧ 2 * 62499999 < 125000000 := by decide

theorem witness_TuningIsPure :
    Admitted (.ftwCalc 14095600) strictState ∧ Admitted (.ftwTune 14095600) bootState ∧
      ∃ t t', exec (.ftwCalc 14095600) strictState = .next t ∧ exec (.ftwTune 14095600) bootState = .next t' := by
  refine ⟨?_, ?_, _, _, rfl, rfl⟩ <;> unfold Admitted <;> decide

/-- From phase S0, two edges later, still in the load. -/
theorem witness_AbortBeforeLatch :
    MachineInv hardware serialState ∧ serialState.seq.eng = .ser ∧ serialState.seq.ph = 0 ∧
      noReset [quiet, quiet] = true ∧
      noOffer [quiet, quiet] = true ∧ (clockRun fastBuild [quiet, quiet] serialState).seq.eng = .ser ∧
      (clockRun fastBuild [quiet, quiet] serialState).seq.ph = 2 ∧ resetPins.rst = true := by
  refine ⟨serial_inv, ?_⟩
  decide +kernel

theorem witness_FoldMapsLowerCase :
    fold 0x60#8 = 0x60#8 ∧ fold 0x61#8 = 0x41#8 ∧ fold 0x7A#8 = 0x5A#8 ∧ fold 0x7B#8 = 0x7B#8 := by decide

theorem witness_LookupLayout :
    legalTable defaultMorseTable = true ∧ classify defaultMorseTable 0x41#8 = .pattern [.dot, .dash] :=
  ⟨default_table_legal, by decide⟩

theorem witness_ClassifyByKey :
    legalTable defaultMorseTable = true ∧ classify defaultMorseTable 0x20#8 = .space ∧
      classify defaultMorseTable 0x40#8 = .unsupported ∧ classify defaultMorseTable 0x5B#8 = .unsupported ∧
      classify defaultMorseTable 0x5A#8 = .pattern [.dash, .dash, .dot, .dot] :=
  ⟨default_table_legal, by decide, by decide, by decide, by decide⟩

/-- V9: the message `SO` at 20 words per minute. -/
theorem witness_SegmentTotals :
    onMs (segs defaultMorseTable [0x53#8, 0x4F#8] 60) = 720 ∧
      totalMs (segs defaultMorseTable [0x53#8, 0x4F#8] 60) = 2320 ∧
      keyPulses false (segs defaultMorseTable [0x53#8, 0x4F#8] 60) = 6 := by decide

theorem witness_GapBetweenLetters :
    classifyFolded defaultMorseTable 0x65#8 = .pattern [.dot] ∧
      classifyFolded defaultMorseTable 0x74#8 = .pattern [.dash] ∧
      ([.dot] : Pattern) ≠ [] ∧ ([.dash] : Pattern) ≠ [] := by
  decide

theorem witness_UnitTable : (1 ≤ 1 ∧ 1 ≤ 1200) ∧ unitMs 1#16 = 1200 ∧ unitMs 1200#16 = 1 := by decide

/-- A read of the entry written and of another. -/
theorem witness_MemReadAfterWrite :
    memRead (memWrite speedState.msg 255 0x41#8) 255 = some 0x41#8 ∧
      memRead (memWrite speedState.msg 255 0x41#8) 3 = some 0x3F#8 := by decide

theorem witness_MemoryIsCanonical :
    Memory.wf 256 speedState.msg = true ∧ Memory.wf 256 (memWrite speedState.msg 255 0x41#8) = true ∧
      Memory.wf 256 (memWrite speedState.msg 256 0x41#8) = false := by decide

theorem witness_ResetSetsEveryRegister : [resetPins].all Pins.rst = true := by decide

theorem witness_PortsAfterReset : resetPins.rst = true := by decide

/-- The last mapped and the first unmapped read address, and both cases of `UNIT_MS`. -/
theorem witness_ReadMap :
    rdData (after 0x1241000000000000#64 speedState) 7 = 0x4A#32 ∧ rdData speedState 8 = 0#32 ∧
      rdData speedState 5 = 60#32 ∧ rdData bootState 5 = 0#32 := by decide

theorem witness_PinsFollowRegisters : State.reset.lines.oe = false ∧ bootState.lines.oe = true := by decide

/-- A step of this hardware, and one of a small legal build. -/
theorem witness_StepKeepsInv :
    (MachineInv hardware { bootState with script := [.command 0x0200000000D714F0#64] } ∧
      ∃ t, step { bootState with script := [.command 0x0200000000D714F0#64] } = .next t ∧ t.ftw = 0x1CDE2768#32) ∧
    ∃ B : Config.Build, B.Legal ∧ MachineInv B.toParams { bootState with script := [.command 0x0200000000000001#64] } ∧
      ∃ t, stepIn B { bootState with script := [.command 0x0200000000000001#64] } = .next t ∧
        t.ftw = 0x55555555#32 := by
  refine ⟨⟨inv_script _ boot_inv, _, rfl, by decide⟩, { fastBuild with toParams := smallParams }, ?_, ?_,
    _, rfl, by decide⟩
  · unfold Config.Build.Legal Config.Params.Legal
    decide +kernel
  · exact inv_script _ (by apply idle_inv <;> decide)

theorem witness_StepNeverStops : MachineInv hardware haltedState ∧ MachineInv hardware txState := ⟨halted_inv, tx_inv⟩

theorem witness_InitDoneClearedOnlyByReset :
    MachineInv hardware { bootState with script := [.edge resetPins] } ∧ bootState.initDone = true ∧
      ∃ t, step { bootState with script := [.edge resetPins] } = .next t ∧ t.initDone = false :=
  ⟨inv_script _ boot_inv, rfl, _, rfl, rfl⟩

/-- A step inside a transmission (the alignment tick) and one outside. -/
theorem witness_IndicatorFollowsKey :
    MachineInv hardware { txState with script := [.edge (quietPins true)] } ∧
      ∃ t, step { txState with script := [.edge (quietPins true)] } = .next t :=
  ⟨inv_script _ tx_inv, _, rfl⟩

theorem witness_IdleLinesAreLow :
    MachineInv hardware { strictState with script := [.command 0x0100000000000000#64] } ∧
      ∃ t, step { strictState with script := [.command 0x0100000000000000#64] } = .next t ∧ t.busy = false ∧
        t.initDone = true :=
  ⟨inv_script _ strict_inv, _, rfl, by decide, by decide⟩

/-- A DDS.INIT at the shortest timing: accepted, checked, three phases, idle again. -/
theorem witness_ClockRunIsTransaction :
    fastBuild.Legal ∧ MachineInv hardware strictState ∧ Ready strictState ∧ noReset (List.replicate 4 quiet) = true ∧
      noOffer (List.replicate 4 quiet) = true ∧
      (clockRun fastBuild (List.replicate 4 quiet)
        (clockEdge fastBuild (offerPins 0x0100000000000000#64 false) strictState)).busy = false := by
  refine ⟨fast_legal, strict_inv, ⟨rfl, rfl⟩, ?_⟩
  decide +kernel

theorem witness_ResultsWaitForCompletion :
    MachineInv hardware strictState ∧ Ready strictState ∧ noReset (List.replicate 3 quiet) = true ∧
      noOffer (List.replicate 3 quiet) = true ∧
      (clockRun fastBuild (List.replicate 3 quiet)
        (clockEdge fastBuild (offerPins 0x0100000000000000#64 false) strictState)).busy = true := by
  refine ⟨strict_inv, ⟨rfl, rfl⟩, ?_⟩
  decide +kernel

theorem witness_CommandsComplete :
    fastBuild.Legal ∧ MachineInv hardware bootState ∧ Ready bootState ∧ noReset (List.replicate 382 quiet) = true ∧
      noOffer (List.replicate 382 quiet) = true ∧ (∀ len, decode 0x0400000000D714F0#64 ≠ .ok (.morseTx len)) ∧
      (fastBuild.msgDepth + 2) + (fastBuild.calcCycles + 1) + 122 * fastBuild.phaseCycles ≤
        (List.replicate 382 quiet).length := by
  refine ⟨fast_legal, boot_inv, ⟨rfl, rfl⟩, by decide +kernel, by decide +kernel, ?_, ?_⟩
  · intro len h
    have : decode 0x0400000000D714F0#64 = .ok (.ftwTune 14095600) := by decide
    rw [this] at h
    cases h
  · decide +kernel

/-- The longest runs of edges the statement speaks of, at the shortest timing. -/
theorem witness_LoadTakesItsPhases :
    fastBuild.Legal ∧ MachineInv fastBuild.toParams bootState ∧ Ready bootState ∧ bootState.initDone = true ∧
      noReset (List.replicate 122 quiet) = true ∧
      (List.replicate 122 quiet).length < 1 + 122 * fastBuild.phaseCycles ∧
      4294967295 < 2 ^ 32 ∧ checkInstr fastBuild.toParams (.ftwTune 4294967295) bootState = none ∧
      noReset (List.replicate 123 quiet) = true ∧
      (List.replicate 123 quiet).length < 1 + fastBuild.calcCycles + 122 * fastBuild.phaseCycles := by
  refine ⟨fast_legal, boot_inv, ⟨rfl, rfl⟩, rfl, ?_⟩
  decide +kernel

/-- The alignment tick, then edges with and without a tick. -/
theorem witness_KeyFollowsTimeline :
    MachineInv hardware txState ∧ txState.seq.eng = .morse ∧ txState.seq.align = true ∧
      (quietPins true).tickMs = true ∧ (quietPins true).rst = false ∧ noReset [quiet, quietPins true] = true ∧
      noOffer [quiet, quietPins true] = true ∧
      (clockRun fastBuild [quiet, quietPins true] (clockEdge fastBuild (quietPins true) txState)).key = true := by
  refine ⟨tx_inv, ?_⟩
  decide +kernel

/-- Two ticks with exactly the edges of R222 between them, and with one edge less. -/
theorem witness_TicksCountOnce :
    fastBuild.msgDepth ≤ 65535 ∧
      ticksSpaced (fastBuild.msgDepth + 4) State.reset.tickGap
        (quietPins true :: (List.replicate 260 quiet ++ [quietPins true])) = true ∧
      ticksSpaced (fastBuild.msgDepth + 4) State.reset.tickGap
        (quietPins true :: (List.replicate 259 quiet ++ [quietPins true])) = false := by decide +kernel

/-- A check step of two cycles with a tick in its first and its last cycle, and none after it. -/
theorem witness_AlignmentWaitsForTick :
    MachineInv slowCheckBuild.toParams speedState ∧ Ready speedState ∧
      decode 0x1300000400000000#64 = .ok (.morseTx 4) ∧
      checkInstr slowCheckBuild.toParams (.morseTx 4) speedState = none ∧
      noReset ([quietPins true] ++ [quietPins true, quiet]) = true ∧
      (∀ n ≤ [quietPins true].length, (clockRun slowCheckBuild ([quietPins true].take n)
        (clockEdge slowCheckBuild (offerPins 0x1300000400000000#64 true) speedState)).seq.eng = .check) ∧
      (clockRun slowCheckBuild [quietPins true, quietPins true]
        (clockEdge slowCheckBuild (offerPins 0x1300000400000000#64 true) speedState)).seq.eng = .morse ∧
      ticksOf ([quietPins true, quiet].drop 1) = 0 ∧
      slowCheckBuild.msgDepth + 2 ≤ ([quietPins true] ++ List.replicate 257 quiet).length ∧
      noReset ([quietPins true] ++ List.replicate 257 quiet) = true ∧
      ticksOf ((List.replicate 257 quiet).drop 1) = 0 :=
  ⟨speed_inv, ⟨rfl, rfl⟩, by decide, by decide, rfl, by decide +kernel, by decide +kernel, rfl, by decide +kernel,
    by decide +kernel, by decide +kernel⟩

end Sys2Proof.Tests
end

section
/-! PROOFS. Facts about the model's operations that every later proof uses: MSG after a write, the opcode of a
decoded word, the two ways a command ends, and which side of the state a command's effect touches. -/

namespace Sys2Proof.Machine

/-! ## The message buffer -/

/-- A read after a write, in any buffer (R10). -/
theorem memRead_memWrite (m : Memory) (i a : Nat) (v : Byte) :
    memRead (memWrite m i v) a = if a = i then some v else memRead m a := by
  induction m with
  | nil => simp [memWrite, memRead, eq_comm]
  | cons c m ih =>
    obtain ⟨k, b⟩ := c
    by_cases hlt : i < k
    · simp [memWrite, hlt, memRead, eq_comm]
    · by_cases hik : i = k
      · subst hik
        by_cases ha : i = a <;> simp [memWrite, memRead, ha, eq_comm]
      · by_cases hka : k = a
        · subst hka
          simp [memWrite, hlt, hik, memRead, Ne.symm hik]
        · simp [memWrite, hlt, hik, memRead, hka, ih]

/-- The first entries of MSG are written exactly when none of its entries reads as invalid (R146). -/
theorem allValid_eq_true {m : Memory} {len : Nat} : allValid m len = true ↔ ∀ i < len, memRead m i ≠ none := by
  simp [allValid, memValid, Option.isSome_iff_ne_none]

/-- A message that stands in MSG is written, and is what `msgBytes` reads (R60, R62). -/
theorem msgBytes_of_reads {mem : Memory} {m : List Byte}
    (h : ∀ (k : Nat) (hk : k < m.length), memRead mem k = some m[k]) :
    allValid mem m.length = true ∧ msgBytes mem m.length = m := by
  refine ⟨allValid_eq_true.mpr fun i hi => by simp [h i hi], ?_⟩
  induction m using List.reverseRecOn with
  | nil => rfl
  | append_singleton m c ih =>
    have hm : msgBytes mem m.length = m := ih fun k hk => by
      rw [h k (by simp; omega), List.getElem_append_left hk]
    have hc : memRead mem m.length = some c := by
      rw [h m.length (by simp)]
      simp
    rw [msgBytes] at hm
    simp [msgBytes, List.range_succ, hm, hc]

/-! ## The opcode of a word -/

/-- The opcode byte of a command's word (R82). -/
theorem fieldOpc_encode (i : Instr) : fieldOpc (encode i) = i.opcode := by
  cases i <;> simp [encode]

/-- A word decodes to a command of its own opcode (R83). -/
theorem opcode_of_decode {c : Cmd} {i : Instr} (h : decode c = .ok i) : i.opcode = fieldOpc c := by
  have hbuild : ∀ r ∈ opcodeRows, (r.build c).opcode = r.opc := by simp [opcodeRows, Instr.opcode]
  unfold decode at h
  split at h
  · cases h
  · rename_i r hr
    have hopc : r.opc = fieldOpc c := by simpa using List.find?_some hr
    split at h
    · cases h
      rw [hbuild r (List.mem_of_find?_eq_some hr), hopc]
    · cases h

/-! ## When the checks pass -/

theorem firstFault_eq_none {l : List (Bool × FaultCode)} : firstFault l = none ↔ ∀ e ∈ l, e.1 = false := by
  induction l with
  | nil => simp [firstFault]
  | cons e l ih =>
    obtain ⟨bad, code⟩ := e
    cases bad <;> simp [firstFault, ih]

theorem mem_of_firstFault {l : List (Bool × FaultCode)} {code : FaultCode} (h : firstFault l = some code) :
    ∃ bad, (bad, code) ∈ l := by
  induction l with
  | nil => simp [firstFault] at h
  | cons e l ih =>
    obtain ⟨bad, c⟩ := e
    cases bad with
    | true => exact ⟨true, by simp_all [firstFault]⟩
    | false =>
      obtain ⟨b, hb⟩ := ih (by simpa [firstFault] using h)
      exact ⟨b, List.mem_cons_of_mem _ hb⟩

/-- The strict range check, as R105 and R115 say it. -/
theorem strictRangeBad_eq (P : Config.Params) (f : Nat) (s : State) :
    strictRangeBad P f s = decide (s.strict = true ∧ P.refclkHz ≤ 2 * f) := by
  simp [strictRangeBad, outOfRange]

/-- The strict range check passes when `STRICT` asks for a frequency below half the clock and gets it. -/
theorem strictRangeBad_eq_false {P : Config.Params} {f : Nat} {s : State} :
    strictRangeBad P f s = false ↔ (s.strict = true → 2 * f < P.refclkHz) := by
  rw [strictRangeBad_eq, decide_eq_false_iff_not, not_and, not_le]

theorem checkDdsInit_eq_none {s : State} : checkDdsInit s = none ↔ s.initDone = false := by
  simp [checkDdsInit, firstFault_eq_none]

theorem checkFtwCalc_eq_none {P : Config.Params} {f : Nat} {s : State} :
    checkFtwCalc P f s = none ↔ (s.strict = true → 2 * f < P.refclkHz) := by
  simp [checkFtwCalc, firstFault_eq_none, strictRangeBad_eq_false]

theorem checkFtwLoad_eq_none {s : State} : checkFtwLoad s = none ↔ s.initDone = true := by
  simp [checkFtwLoad, firstFault_eq_none]

theorem checkFtwTune_eq_none {P : Config.Params} {f : Nat} {s : State} :
    checkFtwTune P f s = none ↔ s.initDone = true ∧ (s.strict = true → 2 * f < P.refclkHz) := by
  simp [checkFtwTune, firstFault_eq_none, strictRangeBad_eq_false]

theorem checkMorseWpm_eq_none {n : Nat} : checkMorseWpm n = none ↔ n ≠ 0 ∧ n ≤ Config.wpmMax := by
  simp [checkMorseWpm, firstFault_eq_none]

theorem checkMsgWr_eq_none {P : Config.Params} {idx : Nat} : checkMsgWr P idx = none ↔ idx < P.msgDepth := by
  simp [checkMsgWr, firstFault_eq_none]

/-- A failed check names a fault (R180). -/
theorem checkInstr_ne_some_none (P : Config.Params) (i : Instr) (s : State) : checkInstr P i s ≠ some .none := by
  intro h
  cases i with
  | morseLookup ch => cases h
  | ctrlSet indEn strict => cases h
  | _ => obtain ⟨bad, hmem⟩ := mem_of_firstFault h; simp at hmem

/-! ## How a command ends -/

theorem execIn_of_fault {P : Config.Params} {i : Instr} {s : State} {code : FaultCode}
    (h : checkInstr P i s = some code) : execIn P i s = .next (takeFault code i.opcode s) := by
  simp [execIn_eq, h]

theorem execIn_of_pass {P : Config.Params} {i : Instr} {s : State} (h : checkInstr P i s = none) :
    execIn P i s = .next (finish (effectOf P i s)) := by
  simp [execIn_eq, h]

/-- A command that answers `t` faulted by its check, or had its effect and completed. -/
theorem exec_cases {i : Instr} {s t : State} (h : exec i s = .next t) :
    (∃ code, checkInstr hardware i s = some code ∧ t = takeFault code i.opcode s) ∨
      (checkInstr hardware i s = none ∧ t = finish (effectOf hardware i s)) := by
  rw [exec_eq_execIn] at h
  cases hc : checkInstr hardware i s with
  | some code =>
    rw [execIn_of_fault hc] at h
    cases h
    exact .inl ⟨code, rfl, rfl⟩
  | none =>
    rw [execIn_of_pass hc] at h
    cases h
    exact .inr ⟨rfl, rfl⟩

/-! ## The effects that contain a load -/

@[simp] theorem effectOf_ftwLoad (P : Config.Params) (w : Word) (s : State) :
    effectOf P (.ftwLoad w) s = serialLoad w s := rfl

@[simp] theorem effectOf_ftwTune (P : Config.Params) (f : Nat) (s : State) :
    effectOf P (.ftwTune f) s = serialLoad (tuningWord f P.refclkHz) (writeTuning P f s) := rfl

/-! ## The sides of the state

The state falls into the FTW path, the Morse path, the fault record with `CTRL`, and what accepting and completing a
command moves. An effect stays on its side, and it does not look at the others. -/

/-- `s` with the FTW path of `a` (R3). -/
def withFtwSide (a s : State) : State :=
  { s with
    ftw := a.ftw, ddsWord := a.ddsWord, oor := a.oor, initDone := a.initDone, lines := a.lines,
    ddsTrace := a.ddsTrace }

/-- `s` with the Morse path of `a` (R3). -/
def withMorseSide (a s : State) : State :=
  { s with
    wpm := a.wpm, msg := a.msg, lookup := a.lookup, dropCount := a.dropCount, key := a.key, ind := a.ind,
    keyTrace := a.keyTrace }

/-- `s` with what the command port and the clock move in `a`: `BUSY`, the sequencer, the command trace, the inputs
to come and the model's counters. -/
def withControl (a s : State) : State :=
  { s with
    busy := a.busy, seq := a.seq, cmdTrace := a.cmdTrace, script := a.script, cycle := a.cycle,
    tickGap := a.tickGap }

/-- The four commands of the FTW family (R3). -/
def IsFtwCommand (i : Instr) : Prop :=
  i = .ddsInit ∨ (∃ f, i = .ftwCalc f) ∨ (∃ w, i = .ftwLoad w) ∨ (∃ f, i = .ftwTune f)

/-- The four commands of the Morse family (R3). -/
def IsMorseCommand (i : Instr) : Prop :=
  (∃ n, i = .morseWpm n) ∨ (∃ idx ch, i = .msgWr idx ch) ∨ (∃ ch, i = .morseLookup ch) ∨
    (∃ len, i = .morseTx len)

/-- A run of phases commutes with every operation that a phase commutes with. -/
theorem phases_commutes {op : State → State} (hop : ∀ c s, phase c (op s) = op (phase c s)) (cs : List LineChange)
    (s : State) : phases cs (op s) = op (phases cs s) := by
  induction cs generalizing s with
  | nil => rfl
  | cons c cs ih => rw [phases_cons, phases_cons, hop, ih]

theorem phases_withMorseSide (cs : List LineChange) (a s : State) :
    phases cs (withMorseSide a s) = withMorseSide a (phases cs s) := phases_commutes (fun _ _ => rfl) cs s

theorem phases_withControl (cs : List LineChange) (a s : State) :
    phases cs (withControl a s) = withControl a (phases cs s) := phases_commutes (fun _ _ => rfl) cs s

/-- A command of the FTW family writes the FTW path only. -/
theorem effectOf_ftw_frame {i : Instr} (h : IsFtwCommand i) (P : Config.Params) (s : State) :
    effectOf P i s = withFtwSide (effectOf P i s) s := by
  obtain rfl | ⟨f, rfl⟩ | ⟨w, rfl⟩ | ⟨f, rfl⟩ := h
  · simp only [effectOf, phases_eq]; rfl
  · rfl
  · simp only [effectOf, serialLoad, phases_eq]; rfl
  · simp only [effectOf, serialLoad, phases_eq]; rfl

/-- A command of the Morse family writes the Morse path only. -/
theorem effectOf_morse_frame {i : Instr} (h : IsMorseCommand i) (P : Config.Params) (s : State) :
    effectOf P i s = withMorseSide (effectOf P i s) s := by
  obtain ⟨n, rfl⟩ | ⟨idx, ch, rfl⟩ | ⟨ch, rfl⟩ | ⟨len, rfl⟩ := h
  · rfl
  · rfl
  · rfl
  · simp only [effectOf, transmit_eq]; rfl

/-- The effect of a command of the FTW family does not depend on the Morse path. -/
theorem effectOf_ftw_withMorseSide {i : Instr} (h : IsFtwCommand i) (P : Config.Params) (a s : State) :
    effectOf P i (withMorseSide a s) = withMorseSide a (effectOf P i s) := by
  obtain rfl | ⟨f, rfl⟩ | ⟨w, rfl⟩ | ⟨f, rfl⟩ := h
  · exact congrArg setInitDone (phases_withMorseSide initPhases a s)
  · rfl
  · exact congrArg (setDdsWord w) (phases_withMorseSide (serialPhases w) a s)
  · exact congrArg (setDdsWord _) (phases_withMorseSide (serialPhases _) a (writeTuning P f s))

/-- The effect of a command of the Morse family does not depend on the FTW path. -/
theorem effectOf_morse_withFtwSide {i : Instr} (h : IsMorseCommand i) (P : Config.Params) (a s : State) :
    effectOf P i (withFtwSide a s) = withFtwSide a (effectOf P i s) := by
  obtain ⟨n, rfl⟩ | ⟨idx, ch, rfl⟩ | ⟨ch, rfl⟩ | ⟨len, rfl⟩ := h
  · rfl
  · rfl
  · rfl
  · simp only [effectOf, transmit_eq]; rfl

/-- No effect depends on the command port or on the clock. -/
theorem effectOf_withControl (P : Config.Params) (i : Instr) (a s : State) :
    effectOf P i (withControl a s) = withControl a (effectOf P i s) := by
  cases i with
  | ddsInit => exact congrArg setInitDone (phases_withControl initPhases a s)
  | ftwLoad w => exact congrArg (setDdsWord w) (phases_withControl (serialPhases w) a s)
  | ftwTune f => exact congrArg (setDdsWord _) (phases_withControl (serialPhases _) a (writeTuning P f s))
  | morseTx len => simp only [effectOf, transmit_eq]; rfl
  | _ => rfl

/-- An effect commutes with every operation on the command port and the clock. -/
theorem effectOf_commutes {op : State → State} (hop : ∀ s e, withControl (op s) e = op (withControl s e))
    (P : Config.Params) (i : Instr) (s : State) : effectOf P i (op s) = op (effectOf P i s) := by
  have hs : op s = withControl (op s) s := (hop s s).symm
  have he : withControl s (effectOf P i s) = effectOf P i s := (effectOf_withControl P i s s).symm
  rw [hs, effectOf_withControl, hop, he]

theorem effectOf_finish (P : Config.Params) (i : Instr) (s : State) :
    effectOf P i (finish s) = finish (effectOf P i s) := effectOf_commutes (fun _ _ => rfl) P i s

/-- No check looks at the command port or at the clock. -/
theorem checkInstr_withControl (P : Config.Params) (i : Instr) (a s : State) :
    checkInstr P i (withControl a s) = checkInstr P i s := by
  cases i <;> rfl

/-- The checks of a command of the FTW family do not look at the Morse path. -/
theorem checkInstr_withMorseSide {i : Instr} (h : IsFtwCommand i) (P : Config.Params) (a s : State) :
    checkInstr P i (withMorseSide a s) = checkInstr P i s := by
  obtain rfl | ⟨f, rfl⟩ | ⟨w, rfl⟩ | ⟨f, rfl⟩ := h <;> rfl

/-- The checks of a command of the Morse family do not look at the FTW path. -/
theorem checkInstr_withFtwSide {i : Instr} (h : IsMorseCommand i) (P : Config.Params) (a s : State) :
    checkInstr P i (withFtwSide a s) = checkInstr P i s := by
  obtain ⟨n, rfl⟩ | ⟨idx, ch, rfl⟩ | ⟨ch, rfl⟩ | ⟨len, rfl⟩ := h <;> rfl

end Sys2Proof.Machine
end

section
/-! PROOFS. The statements about single commands: MSG, faults, frames, independence, and the build parameters. -/

namespace Sys2Proof.Proofs

open Machine

/-- Settles O41, from the lemma on a read after a write. -/
theorem memReadAfterWrite : Obligations.MemReadAfterWrite := memRead_memWrite

/-- Settles O16: an index below 256 passes the one check of MSG.WR. -/
theorem msgWrCompletes : Obligations.MsgWrCompletes := by
  intro idx ch s hidx
  have hpass : checkInstr hardware (.msgWr idx ch) s = none := checkMsgWr_eq_none.mpr hidx
  refine ⟨finish (writeMsg idx ch s), by rw [exec_eq_execIn, execIn_of_pass hpass]; rfl, ?_, ?_, rfl⟩
  · simp [memRead_memWrite]
  · intro a ha
    simp [memRead_memWrite, ha]

/-! ## Faults -/

/-- Settles O20, command by command. -/
theorem faultsInOrder : Obligations.FaultsInOrder := by
  intro P s
  refine ⟨?ddsInit, fun f => ?ftwCalc, fun w => ?ftwLoad, fun f => ?ftwTune, fun n => ?morseWpm,
    fun idx ch => ?msgWr, fun ch => rfl, fun len => ?morseTx, fun indEn strict => rfl⟩
  case ddsInit => simp [checkInstr, checkDdsInit, firstFault]
  case ftwCalc => simp [checkInstr, checkFtwCalc, firstFault, strictRangeBad_eq]
  case ftwLoad => cases h : s.initDone <;> simp [checkInstr, checkFtwLoad, firstFault, h]
  case ftwTune => simp [checkInstr, checkFtwTune, firstFault, strictRangeBad_eq]
  case morseWpm => simp [checkInstr, checkMorseWpm, firstFault]
  case msgWr => simp [checkInstr, checkMsgWr, firstFault]
  case morseTx =>
    have hvalid : allValid s.msg len = false ↔ ∃ i < len, memRead s.msg i = none := by
      rw [← Bool.not_eq_true, allValid_eq_true]
      push Not
      rfl
    simp [checkInstr, checkMorseTx, firstFault, hvalid]

/-! ## Frames -/

/-- Settles O23: a fault changes the fault record only, and an effect of the family stays on the FTW path. -/
theorem ftwFamilyFrame : Obligations.FtwFamilyFrame := by
  intro i s t hi h
  obtain ⟨code, -, rfl⟩ | ⟨-, rfl⟩ := exec_cases h
  · exact ⟨⟨rfl, rfl, rfl, rfl, rfl, rfl⟩, fun _ => rfl, ⟨rfl, rfl⟩, rfl, rfl, rfl⟩
  · rw [effectOf_ftw_frame hi]
    exact ⟨⟨rfl, rfl, rfl, rfl, rfl, rfl⟩, fun _ => rfl, ⟨rfl, rfl⟩, rfl, rfl, rfl⟩

/-- What every command of the Morse family leaves alone, completed or faulted (R3). -/
theorem exec_morse_frame {i : Instr} {s t : State} (hi : IsMorseCommand i) (h : exec i s = .next t) :
    SameFtwSide s t ∧ SameCtrl s t ∧ SameBook s t ∧ (Admitted i s → SameFaultRecord s t) := by
  obtain ⟨code, hc, rfl⟩ | ⟨-, rfl⟩ := exec_cases h
  · exact ⟨⟨rfl, rfl, rfl, rfl, rfl, rfl⟩, ⟨rfl, rfl⟩, ⟨rfl, rfl, rfl⟩,
      fun ha => absurd (hc.symm.trans ha) (by simp)⟩
  · rw [effectOf_morse_frame hi]
    exact ⟨⟨rfl, rfl, rfl, rfl, rfl, rfl⟩, ⟨rfl, rfl⟩, ⟨rfl, rfl, rfl⟩, fun _ => ⟨rfl, rfl, rfl⟩⟩

/-- Settles O25: the frame of the Morse family, and for each command the registers of its side that it does not
write. -/
theorem morseAndControlFrame : Obligations.MorseAndControlFrame := by
  intro s t
  refine ⟨fun indEn strict h => ?ctrlSet, fun n h => ?morseWpm, fun idx ch h => ?msgWr, fun ch h => ?morseLookup,
    fun len h => ?morseTx⟩
  case ctrlSet =>
    obtain ⟨code, hc, -⟩ | ⟨-, rfl⟩ := exec_cases h
    · cases hc
    · exact ⟨⟨rfl, rfl, rfl, rfl, rfl, rfl⟩, ⟨rfl, rfl, rfl, rfl, rfl, rfl⟩, fun _ => rfl, ⟨rfl, rfl, rfl⟩,
        rfl, rfl, rfl⟩
  case morseWpm =>
    obtain ⟨hftw, hctrl, hbook, hrec⟩ := exec_morse_frame (.inl ⟨n, rfl⟩) h
    obtain ⟨code, -, rfl⟩ | ⟨-, rfl⟩ := exec_cases h <;>
      exact ⟨hftw, hctrl, hbook, fun _ => rfl, rfl, rfl, rfl, rfl, rfl, hrec⟩
  case msgWr =>
    obtain ⟨hftw, hctrl, hbook, hrec⟩ := exec_morse_frame (.inr (.inl ⟨idx, ch, rfl⟩)) h
    refine ⟨hftw, hctrl, hbook, ?_, ?_, hrec⟩
    · obtain ⟨code, -, rfl⟩ | ⟨-, rfl⟩ := exec_cases h <;> exact ⟨rfl, rfl, rfl, rfl, rfl, rfl⟩
    · intro a ha
      obtain ⟨code, -, rfl⟩ | ⟨-, rfl⟩ := exec_cases h
      · rfl
      · simp [effectOf, memRead_memWrite, ha]
  case morseLookup =>
    obtain ⟨hftw, hctrl, hbook, hrec⟩ := exec_morse_frame (.inr (.inr (.inl ⟨ch, rfl⟩))) h
    refine ⟨hftw, hctrl, hbook, ?_⟩
    obtain ⟨code, hc, -⟩ | ⟨-, rfl⟩ := exec_cases h
    · cases hc
    · exact ⟨fun _ => rfl, rfl, rfl, rfl, rfl, rfl, hrec rfl⟩
  case morseTx =>
    obtain ⟨hftw, hctrl, hbook, hrec⟩ := exec_morse_frame (.inr (.inr (.inr ⟨len, rfl⟩))) h
    refine ⟨hftw, hctrl, hbook, ?_⟩
    obtain ⟨code, -, rfl⟩ | ⟨-, rfl⟩ := exec_cases h
    · exact ⟨fun _ => rfl, rfl, rfl, hrec⟩
    · refine ⟨fun a => ?_, ?_, ?_, hrec⟩ <;> simp [effectOf, transmit_eq]

/-! ## Independence of the paths -/

/-- The effects of the two families commute (R3): each overwrites its own side of the state and reads no other. -/
theorem effectOf_comm {i j : Instr} (hi : IsFtwCommand i) (hj : IsMorseCommand j) (P : Config.Params) (s : State) :
    effectOf P j (effectOf P i s) = effectOf P i (effectOf P j s) :=
  calc effectOf P j (effectOf P i s)
      = effectOf P j (withFtwSide (effectOf P i s) s) := by rw [← effectOf_ftw_frame hi]
    _ = withFtwSide (effectOf P i s) (effectOf P j s) := effectOf_morse_withFtwSide hj P _ s
    _ = withFtwSide (effectOf P i s) (withMorseSide (effectOf P j s) s) := by rw [← effectOf_morse_frame hj]
    _ = withMorseSide (effectOf P j s) (withFtwSide (effectOf P i s) s) := rfl
    _ = withMorseSide (effectOf P j s) (effectOf P i s) := by rw [← effectOf_ftw_frame hi]
    _ = effectOf P i (withMorseSide (effectOf P j s) s) := (effectOf_ftw_withMorseSide hi P _ s).symm
    _ = effectOf P i (effectOf P j s) := by rw [← effectOf_morse_frame hj]

/-- A completed command of the FTW family changes no check of the Morse family. -/
theorem checkInstr_after_ftw {i j : Instr} (hi : IsFtwCommand i) (hj : IsMorseCommand j) (P : Config.Params)
    (s : State) : checkInstr P j (finish (effectOf P i s)) = checkInstr P j s := by
  rw [effectOf_ftw_frame hi]
  exact (checkInstr_withControl P j (finish (effectOf P i s)) _).trans (checkInstr_withFtwSide hj P _ s)

/-- A completed command of the Morse family changes no check of the FTW family. -/
theorem checkInstr_after_morse {i j : Instr} (hi : IsFtwCommand i) (hj : IsMorseCommand j) (P : Config.Params)
    (s : State) : checkInstr P i (finish (effectOf P j s)) = checkInstr P i s := by
  rw [effectOf_morse_frame hj]
  exact (checkInstr_withControl P i (finish (effectOf P j s)) _).trans (checkInstr_withMorseSide hi P _ s)

/-- Settles O26: no check sees the other family's effect, and the effects commute. -/
theorem pathsAreIndependent : Obligations.PathsAreIndependent := by
  intro i j s t₁ t₂ u₁ u₂ hi hj hai haj h₁ h₁' h₂ h₂'
  have completes {k : Instr} {a b : State} (hk : checkInstr hardware k a = none) (h : exec k a = .next b) :
      b = finish (effectOf hardware k a) := by
    rw [exec_eq_execIn, execIn_of_pass hk] at h
    cases h
    rfl
  obtain rfl := completes hai h₁
  obtain rfl := completes haj h₂
  rw [completes ((checkInstr_after_ftw hi hj hardware s).trans haj) h₁',
    completes ((checkInstr_after_morse hi hj hardware s).trans hai) h₂', effectOf_finish, effectOf_finish,
    effectOf_comm hi hj]

/-! ## The build parameters -/

/-- Settles O60: the checks of each command decide between the fault record and its effect. -/
theorem commandsTakeParameters : Obligations.CommandsTakeParameters := by
  intro P s
  refine ⟨fun i => exec_eq_execIn i s, fun i code h => ?faults, fun f h => ?ftwCalc, fun f d hi h hl => ?ftwTune,
    fun idx ch h => ?msgWr, fun ch => rfl, fun m hm hw hr => ?morseTx⟩
  case faults =>
    rw [execIn_of_fault h, fieldOpc_encode]
    rfl
  case ftwCalc => exact execIn_of_pass (i := .ftwCalc f) (checkFtwCalc_eq_none.mpr h)
  case ftwTune =>
    rw [execIn_of_pass (i := .ftwTune f) (checkFtwTune_eq_none.mpr ⟨hi, h⟩), ← frame_eq]
    exact congrArg (fun t => Host.Outcome.next (finish t))
      (serialLoad_eq (tuningWord f P.refclkHz) (writeTuning P f s) d hl)
  case msgWr => exact execIn_of_pass (i := .msgWr idx ch) (checkMsgWr_eq_none.mpr h)
  case morseTx =>
    obtain ⟨hvalid, hbytes⟩ := msgBytes_of_reads hr
    have hunit : unitMs s.wpm = 1200 / s.wpm.toNat := by simp [unitMs, hw]
    rw [execIn_of_pass (i := .morseTx m.length) (checkMorseTx_eq_none.mpr ⟨hw, hm, hvalid⟩), effectOf, transmit_eq,
      hbytes, hunit]
    rfl

end Sys2Proof.Proofs
end

section
/-! PROOFS. Where the keying sequencer goes: the segments that are still to come at each of its positions, and what
one edge of a transmission can do. -/

namespace Sys2Proof.Machine

/-! ## The characters of a message by their index -/

theorem classAt_eq_none {t : MorseTable} {m : List Byte} {i : Nat} : classAt t m i = none ↔ m.length ≤ i := by
  simp [classAt]

/-- The rest of a message at an index that has a class. -/
theorem drop_of_classAt {t : MorseTable} {m : List Byte} {i : Nat} {k : CharClass} (h : classAt t m i = some k) :
    i < m.length ∧ ∃ c, classifyFolded t c = k ∧ m.drop i = c :: m.drop (i + 1) := by
  have hi : i < m.length := by
    rw [← not_le, ← classAt_eq_none (t := t), h]
    simp
  refine ⟨hi, m[i], ?_, List.drop_eq_getElem_cons hi⟩
  simpa [classAt, hi] using h

@[simp] theorem segs_nil (t : MorseTable) (u : Nat) : segs t [] u = [tailSeg] := rfl

@[simp] theorem segs_cons (t : MorseTable) (c : Byte) (m : List Byte) (u : Nat) :
    segs t (c :: m) u = charSegs u (classifyFolded t c) ++ segs t m u := by
  simp [segs]

/-- Skipping dropped characters skips no segment (R134, R151). -/
theorem segs_drop_skipDropped (t : MorseTable) (m : List Byte) (i u : Nat) :
    segs t (m.drop (skipDropped t m i)) u = segs t (m.drop i) u := by
  have key (l : List Byte) :
      segs t (l.drop (l.takeWhile (fun c => classifyFolded t c == .unsupported)).length) u = segs t l u := by
    induction l with
    | nil => rfl
    | cons c l ih =>
      by_cases hc : classifyFolded t c = .unsupported <;> simp [hc, charSegs, ih]
  rw [skipDropped, ← List.drop_drop, key]

/-! ## The segments still to come -/

/-- What is left of a pattern's segments after its symbol `si` has begun: the pause, unless it has begun too, the
later symbols, and the gap. -/
def restOfPattern (u : Nat) (p : Pattern) (si sub : Nat) : List Segment :=
  if si < p.length then
    (if sub = 0 then [⟨false, u⟩] else []) ++ (p.drop (si + 1)).flatMap (symbolSegs u) ++ [⟨false, 2 * u⟩]
  else []

/-- The segments of a message after the one at the position of the sequencer (R134, R150). -/
def restSegs (t : MorseTable) (m : List Byte) (u : Nat) (q : Sequencer) : List Segment :=
  match classAt t m q.ci with
  | none => []
  | some (.pattern p) => restOfPattern u p q.si q.sub ++ segs t (m.drop (q.ci + 1)) u
  | some _ => segs t (m.drop (q.ci + 1)) u

/-- The segments that a transmission has yet to begin: all of them while it waits for its first tick. -/
def pendingSegs (t : MorseTable) (s : State) : List Segment :=
  if s.seq.align then segs t (txBytes s) (unitMs s.wpm) else restSegs t (txBytes s) (unitMs s.wpm) s.seq

/-- From a symbol's place on, a pattern's segments begin with its mark, or with the gap past its last symbol. -/
theorem patternSegs_drop {t : MorseTable} {m : List Byte} {p : Pattern} (u : Nat) {q : Sequencer}
    (hc : classAt t m q.ci = some (.pattern p)) (hsub : q.sub = 0) :
    (p.drop q.si).flatMap (symbolSegs u) ++ [⟨false, 2 * u⟩] =
      segmentAt t m u q.ci q.si q.sub :: restOfPattern u p q.si q.sub := by
  by_cases hsi : q.si < p.length
  · rw [List.drop_eq_getElem_cons hsi, List.flatMap_cons]
    simp [segmentAt, restOfPattern, hc, hsi, hsub, symbolSegs]
  · simp [segmentAt, restOfPattern, hc, hsi, List.drop_eq_nil_of_le (not_lt.mp hsi)]

/-- The position of the first segment of a character, or of the tail. -/
def charStart (ci : Nat) : Sequencer := { Sequencer.idle with ci := ci }

/-- A message from a kept character on begins with that character's first segment. -/
theorem segs_drop_eq {t : MorseTable} {m : List Byte} {i : Nat} (u : Nat) (hi : i ≤ m.length)
    (hkept : classAt t m i ≠ some .unsupported) :
    positionExists t m (charStart i) = true ∧
      segs t (m.drop i) u = segmentAt t m u i 0 0 :: restSegs t m u (charStart i) := by
  cases hc : classAt t m i with
  | none =>
    have hlen : m.length ≤ i := classAt_eq_none.mp hc
    simp [positionExists, restSegs, segmentAt, charStart, Sequencer.idle, hc, List.drop_eq_nil_of_le hlen]
    omega
  | some k =>
    obtain ⟨-, c, hck, hdrop⟩ := drop_of_classAt hc
    rw [hdrop, segs_cons, hck]
    cases k with
    | unsupported => exact absurd hc hkept
    | space => simp [positionExists, restSegs, segmentAt, charStart, Sequencer.idle, hc, charSegs]
    | pattern p =>
      have hrest := patternSegs_drop u (q := charStart i) hc rfl
      simp only [charStart, Sequencer.idle, List.drop_zero] at hrest
      constructor
      · cases p <;> simp [positionExists, charStart, Sequencer.idle, hc]
      · simp [charSegs, restSegs, charStart, Sequencer.idle, hc, hrest]

/-! ## What an edge of a transmission can do -/

/-- The sequencer goes on to the segment at `q`: that position exists, and its segment is the first of those that
were still to come. -/
structure Begins (t : MorseTable) (s : State) (pending : List Segment) (q : Sequencer) : Prop where
  position : positionExists t (txBytes s) q = true
  pending_eq : pending =
    segmentAt t (txBytes s) (unitMs s.wpm) q.ci q.si q.sub :: restSegs t (txBytes s) (unitMs s.wpm) q

/-- The state at the start of a segment, the segment given. -/
def atSegment (q : Sequencer) (g : Segment) (s : State) : State :=
  setSeq { s.seq with ci := q.ci, si := q.si, sub := q.sub, rem := g.ms, align := false } (emit g s)

theorem beginSegment_eq (t : MorseTable) (q : Sequencer) (s : State) :
    beginSegment t q.ci q.si q.sub s =
      atSegment q (segmentAt t (txBytes s) (unitMs s.wpm) q.ci q.si q.sub) s := rfl

/-- The next character is the first from there on that is not dropped, or the tail (R151). -/
theorem beginChar_cases (t : MorseTable) (s : State) {i : Nat} (hi : i ≤ (txBytes s).length) :
    ∃ q, beginChar t i s = beginSegment t q.ci q.si q.sub s ∧
      Begins t s (segs t ((txBytes s).drop i) (unitMs s.wpm)) q := by
  obtain ⟨-, hle, hkept⟩ := skipDropped_spec t (txBytes s) hi
  obtain ⟨hex, hsegs⟩ := segs_drop_eq (unitMs s.wpm) hle hkept
  exact ⟨charStart (skipDropped t (txBytes s) i), rfl, hex, by rw [← segs_drop_skipDropped]; exact hsegs⟩

/-- After a segment comes the next one of the message; after the tail, completion (R151 (3), (4)). -/
theorem nextSegment_cases {t : MorseTable} {s : State} (hex : positionExists t (txBytes s) s.seq = true) :
    (classAt t (txBytes s) s.seq.ci = none ∧ nextSegment t s = finish s) ∨
      ∃ q, nextSegment t s = beginSegment t q.ci q.si q.sub s ∧
        Begins t s (restSegs t (txBytes s) (unitMs s.wpm) s.seq) q := by
  cases hc : classAt t (txBytes s) s.seq.ci with
  | none => exact .inl ⟨rfl, by simp [nextSegment, hc]⟩
  | some k =>
    refine .inr ?_
    obtain ⟨hci, -⟩ := drop_of_classAt hc
    obtain ⟨q, hq, hbegins⟩ := beginChar_cases t s (i := s.seq.ci + 1) (by omega)
    cases k with
    | unsupported => simp [positionExists, hc] at hex
    | space => exact ⟨q, by simpa [nextSegment, hc] using hq, by simpa [restSegs, hc] using hbegins⟩
    | pattern p =>
      by_cases hsi : s.seq.si < p.length
      · by_cases hsub : s.seq.sub = 0
        · refine ⟨{ s.seq with sub := 1 }, by simp [nextSegment, hc, hsi, hsub], ?_, ?_⟩
          · simp [positionExists, hc, hsi]
          · simp [restSegs, restOfPattern, segmentAt, hc, hsi, hsub]
        · have hrest := patternSegs_drop (unitMs s.wpm) (q := { s.seq with si := s.seq.si + 1, sub := 0 }) hc rfl
          refine ⟨{ s.seq with si := s.seq.si + 1, sub := 0 }, by simp [nextSegment, hc, hsi, hsub], ?_, ?_⟩
          · simp [positionExists, hc]
            omega
          · simp only [restSegs, hc]
            rw [← List.cons_append, ← hrest]
            simp [restOfPattern, hsi, hsub]
      · exact ⟨q, by simpa [nextSegment, hc, hsi] using hq, by simpa [restSegs, restOfPattern, hc, hsi] using hbegins⟩

/-- An edge of a transmission waits, counts a millisecond, begins the next segment, or completes after the tail
(R151). -/
theorem keyEdge_cases (B : Config.Build) (p : Pins) {s : State}
    (hex : s.seq.align = true ∨ positionExists B.morseTable (txBytes s) s.seq = true) :
    keyEdge B p s = s ∨
    (s.seq.align = false ∧ 1 < s.seq.rem ∧ keyEdge B p s = setSeq { s.seq with rem := s.seq.rem - 1 } s) ∨
    (s.seq.align = false ∧ classAt B.morseTable (txBytes s) s.seq.ci = none ∧ keyEdge B p s = finish s) ∨
    (∃ q, keyEdge B p s = beginSegment B.morseTable q.ci q.si q.sub s ∧
      Begins B.morseTable s (pendingSegs B.morseTable s) q) := by
  cases ha : s.seq.align with
  | true =>
    cases hp : p.tickMs with
    | true =>
      obtain ⟨q, hq, hbegins⟩ := beginChar_cases B.morseTable s (Nat.zero_le _)
      exact .inr (.inr (.inr ⟨q, by simpa [keyEdge, ha, hp] using hq, by simpa [pendingSegs, ha] using hbegins⟩))
    | false => exact .inl (by simp [keyEdge, ha, hp])
  | false =>
    cases hcount : tickCounts B p s with
    | false => exact .inl (by simp [keyEdge, ha, hcount])
    | true =>
      refine .inr ?_
      by_cases hrem : s.seq.rem ≤ 1
      · have hkey : keyEdge B p s = nextSegment B.morseTable s := by simp [keyEdge, ha, hcount, hrem]
        obtain ⟨hc, hfin⟩ | ⟨q, hq, hbegins⟩ := nextSegment_cases (hex.resolve_left (by simp [ha]))
        · exact .inr (.inl ⟨rfl, hc, hkey.trans hfin⟩)
        · exact .inr (.inr ⟨q, hkey.trans hq, by simpa [pendingSegs, ha] using hbegins⟩)
      · exact .inl ⟨rfl, by omega, by simp [keyEdge, ha, hcount, hrem]⟩

/-! ## What an edge of the other engines can do -/

/-- A phase goes on, the next one begins, or DDS.INIT completes (R110, R116). -/
theorem initEdge_cases (B : Config.Build) (s : State) :
    initEdge B s = countCycle s ∨
    (s.seq.ph < 2 ∧ initEdge B s = beginPhase (initPhase (s.seq.ph + 1)) (s.seq.ph + 1) s) ∨
    (2 ≤ s.seq.ph ∧ initEdge B s = finish (setInitDone s)) := by
  unfold initEdge
  split
  · exact .inl rfl
  · split
    · exact .inr (.inl ⟨‹_›, rfl⟩)
    · exact .inr (.inr ⟨not_lt.mp ‹_›, rfl⟩)

/-- A phase goes on, the next one begins, or the load completes (R112, R116). -/
theorem serialEdge_cases (B : Config.Build) (s : State) :
    serialEdge B s = countCycle s ∨
    (s.seq.ph < 121 ∧ serialEdge B s =
      beginPhase (serialPhase (frame (serialWord s)) (s.seq.ph + 1)) (s.seq.ph + 1) s) ∨
    (121 ≤ s.seq.ph ∧ serialEdge B s = finish (setDdsWord (serialWord s) s)) := by
  unfold serialEdge
  split
  · exact .inl rfl
  · split
    · exact .inr (.inl ⟨‹_›, rfl⟩)
    · exact .inr (.inr ⟨not_lt.mp ‹_›, rfl⟩)

/-- A calculation goes on; FTW.CALC completes; FTW.TUNE writes its word, and begins its load one edge later (R105,
R115). -/
theorem calcEdge_cases (B : Config.Build) {s : State}
    (hi : (∃ f, currentInstr s = some (.ftwCalc f)) ∨ ∃ f, currentInstr s = some (.ftwTune f)) :
    (s.seq.cyc + 1 < B.calcCycles ∧ calcEdge B s = countCycle s) ∨
    (∃ f, currentInstr s = some (.ftwCalc f) ∧ calcEdge B s = finish (writeTuning B.toParams f s)) ∨
    (∃ f, currentInstr s = some (.ftwTune f) ∧ s.seq.cyc + 1 = B.calcCycles ∧
      calcEdge B s = countCycle (writeTuning B.toParams f s)) ∨
    (∃ f, currentInstr s = some (.ftwTune f) ∧ B.calcCycles < s.seq.cyc + 1 ∧ calcEdge B s = startSerial s) := by
  by_cases hlt : s.seq.cyc + 1 < B.calcCycles
  · exact .inl ⟨hlt, by simp [calcEdge, hlt]⟩
  · refine .inr ?_
    obtain ⟨f, hf⟩ | ⟨f, hf⟩ := hi
    · exact .inl ⟨f, hf, by simp [calcEdge, hlt, hf]⟩
    · by_cases heq : s.seq.cyc + 1 = B.calcCycles
      · exact .inr (.inl ⟨f, hf, heq, by simp [calcEdge, hf, heq]⟩)
      · exact .inr (.inr ⟨f, hf, by omega, by simp [calcEdge, hlt, hf, heq]⟩)

/-- The state in which a command whose check step is over ends, when it is taken as one transaction. -/
def settleChecked (P : Config.Params) (s : State) : State :=
  match decode s.seq.opw with
  | .error e => takeFault (decodeFaultCode e) (fieldOpc s.seq.opw) s
  | .ok i =>
    match checkInstr P i s with
    | some code => takeFault code (fieldOpc s.seq.opw) s
    | none => finish (effectOf P i s)

/-- A transaction ends as the accepted command does. -/
theorem transactionBy_eq (P : Config.Params) (w : Cmd) (s : State) :
    transactionBy (execIn P) w s = .next (settleChecked P (accept w s)) := by
  cases hd : decode w with
  | error e => simp [transactionBy, settleChecked, hd]
  | ok i =>
    simp only [transactionBy, settleChecked, accept_seq, hd]
    cases hc : checkInstr P i (accept w s) with
    | some code => rw [execIn_of_fault hc, opcode_of_decode hd]
    | none => rw [execIn_of_pass hc]

/-- The end of the check step is a fault, which settles the command, or the start of one that passes its checks
(R182, R186). -/
theorem endCheck_cases (P : Config.Params) (s : State) :
    ((∃ code, code ≠ .none ∧ settleChecked P s = takeFault code (fieldOpc s.seq.opw) s) ∧
      endCheck P s = settleChecked P s) ∨
    (∃ i, currentInstr s = some i ∧ checkInstr P i s = none ∧ settleChecked P s = finish (effectOf P i s) ∧
      endCheck P s = startInstr P i s) := by
  cases hd : decode s.seq.opw with
  | error e =>
    refine .inl ⟨⟨decodeFaultCode e, by cases e <;> simp [decodeFaultCode], ?_⟩, ?_⟩ <;>
      simp [endCheck, settleChecked, hd]
  | ok i =>
    cases hc : checkInstr P i s with
    | some code =>
      refine .inl ⟨⟨code, fun e => checkInstr_ne_some_none P i s (hc.trans (congrArg some e)), ?_⟩, ?_⟩ <;>
        simp [endCheck, settleChecked, hd, hc]
    | none =>
      exact .inr ⟨i, by simp [currentInstr, hd, Except.toOption], hc, by simp [settleChecked, hd, hc],
        by simp [endCheck, hd, hc]⟩

/-- The check step goes on or ends (R230). -/
theorem checkEdge_cases (B : Config.Build) (s : State) :
    checkEdge B s = countCycle s ∨ checkEdge B s = endCheck B.toParams s := by
  unfold checkEdge
  split
  · exact .inr rfl
  · exact .inl rfl

end Sys2Proof.Machine
end

section
/-! PROOFS. The invariant: what it says of each state of the sequencer, and that every operation of a command, every
clock edge and every step keeps it. -/

namespace Sys2Proof

open Machine

/-! ## The sequencer and the command it runs, engine by engine -/

section
variable {P : Config.Params} {s : State}

theorem consistent_check (he : s.seq.eng = .check) : sequencerConsistent P s = true ↔ s.busy = true := by
  simp [sequencerConsistent, he]

theorem consistent_calcWord (he : s.seq.eng = .calcWord) :
    sequencerConsistent P s = true ↔ s.busy = true ∧
      ((∃ f, currentInstr s = some (.ftwCalc f)) ∨ (∃ f, currentInstr s = some (.ftwTune f)) ∧ s.initDone = true) := by
  simp only [sequencerConsistent, he]
  rcases currentInstr s with _ | i
  · simp
  · cases i <;> simp

theorem consistent_initSeq (he : s.seq.eng = .initSeq) :
    sequencerConsistent P s = true ↔ s.busy = true ∧ s.seq.ph ≤ 2 ∧ currentInstr s = some .ddsInit := by
  simp only [sequencerConsistent, he]
  rcases currentInstr s with _ | i
  · simp
  · cases i <;> simp

theorem consistent_ser (he : s.seq.eng = .ser) :
    sequencerConsistent P s = true ↔ s.busy = true ∧ s.seq.ph ≤ 121 ∧ s.initDone = true ∧
      ((∃ w, currentInstr s = some (.ftwLoad w)) ∨ ∃ f, currentInstr s = some (.ftwTune f)) := by
  simp only [sequencerConsistent, he]
  rcases currentInstr s with _ | i
  · simp
  · cases i <;> simp [and_assoc]

theorem consistent_morse (he : s.seq.eng = .morse) :
    sequencerConsistent P s = true ↔ s.busy = true ∧ ∃ len, currentInstr s = some (.morseTx len) ∧
      checkMorseTx P len s = none ∧
      (s.seq.align = true ∨ positionExists P.morseTable (txBytes s) s.seq = true) := by
  simp only [sequencerConsistent, he]
  rcases currentInstr s with _ | i
  · simp
  · cases i <;> simp

end

/-! ## What the invariant says while no message is sent, and while no sequence runs -/

/-- The engines that move no line: between commands, and before a command's first sequence. -/
def Machine.Engine.resting : Engine → Bool
  | .idle | .check | .calcWord => true
  | .initSeq | .ser | .morse => false

/-- The registers of the invariant while the key is off. -/
structure Silent (P : Config.Params) (s : State) : Prop where
  msgWf : Memory.wf P.msgDepth s.msg = true
  wpmLegal : s.wpm.toNat ≤ Config.wpmMax
  lookupLegal : LookupLegal s.lookup
  dropLegal : s.dropCount.toNat ≤ P.msgDepth
  faultRecord : (s.halted = true ↔ s.faultCode ≠ .none) ∧ (s.halted = false → s.faultOpc = 0x00#8)
  keyOff : s.key = false
  indOff : s.ind = false
  gapLegal : s.tickGap ≤ tickGapMax

/-- The same with the DDS lines idle (R112, R183). -/
structure Resting (P : Config.Params) (s : State) : Prop extends Silent P s where
  linesIdle : s.lines = ⟨s.initDone, false, false, false, false⟩

section
variable {P : Config.Params} {s : State}

/-- A busy block is not halted (R183). -/
theorem MachineInv.not_halted (h : MachineInv P s) (hb : s.busy = true) : s.halted = false := by
  cases hh : s.halted with
  | false => rfl
  | true => exact absurd (h.haltedIdle hh) (by simp [hb])

/-- A block that is not busy is idle (R45). -/
theorem MachineInv.eng_idle (h : MachineInv P s) (hb : s.busy = false) : s.seq.eng = .idle := by
  have hc := h.consistent
  cases he : s.seq.eng with
  | idle => rfl
  | _ => simp [sequencerConsistent, he, hb] at hc

theorem MachineInv.silent (h : MachineInv P s) (hkey : s.key = false) : Silent P s :=
  { h with keyOff := hkey, indOff := by simpa [hkey] using h.indAt }

theorem MachineInv.key_off (h : MachineInv P s) (he : s.seq.eng ≠ .morse) : s.key = false := by
  simpa [keyExpected, he] using h.keyAt

theorem linesExpected_resting (he : s.seq.eng.resting = true) :
    linesExpected s = ⟨s.initDone, false, false, false, false⟩ := by
  unfold linesExpected
  split <;> simp_all [Engine.resting]

theorem linesExpected_initSeq (he : s.seq.eng = .initSeq) : linesExpected s = initLinesAt s.seq.ph := by
  simp [linesExpected, he]

theorem linesExpected_ser (he : s.seq.eng = .ser) :
    linesExpected s = serialLinesAt (frame (serialWord s)) s.seq.ph := by
  simp [linesExpected, he]

theorem linesExpected_morse (he : s.seq.eng = .morse) :
    linesExpected s = ⟨s.initDone, false, false, false, false⟩ := by
  simp [linesExpected, he]

theorem MachineInv.resting (h : MachineInv P s) (he : s.seq.eng.resting = true) : Resting P s :=
  { h.silent (h.key_off (by rintro e; simp [e, Engine.resting] at he)) with
    linesIdle := h.linesAt.trans (linesExpected_resting he) }

/-- The invariant of a state in which no message is sent. -/
theorem Silent.inv (h : Silent P s) (he : s.seq.eng ≠ .morse) (hc : sequencerConsistent P s = true)
    (hh : s.halted = true → s.busy = false) (hi : s.seq.eng = .initSeq → s.initDone = false)
    (hl : s.lines = linesExpected s) : MachineInv P s :=
  { h with
    consistent := hc, haltedIdle := hh, initOnce := hi, linesAt := hl
    keyAt := by simp [keyExpected, he, h.keyOff]
    indAt := by simp [h.keyOff, h.indOff]
    remAt := fun e => absurd e he
    dropAt := fun e => absurd e he }

/-- The invariant of a state in which no sequence runs. -/
theorem Resting.inv (h : Resting P s) (he : s.seq.eng.resting = true) (hc : sequencerConsistent P s = true)
    (hh : s.halted = true → s.busy = false) : MachineInv P s :=
  h.toSilent.inv (by rintro e; simp [e, Engine.resting] at he) hc hh (by rintro e; simp [e, Engine.resting] at he)
    (h.linesIdle.trans (linesExpected_resting he).symm)

/-- Completing a command in a resting state leaves the invariant. -/
theorem Resting.finish_inv (h : Resting P s) : MachineInv P (finish s) :=
  Resting.inv (s := finish s) { h with } rfl rfl fun _ => rfl

/-- Taking a fault in a resting state leaves the invariant (R183). -/
theorem Resting.takeFault_inv (h : Resting P s) {code : FaultCode} (hcode : code ≠ .none) (opc : Byte) :
    MachineInv P (takeFault code opc s) :=
  Resting.inv (s := takeFault code opc s) { h with faultRecord := by simp [hcode] } rfl rfl fun _ => rfl

end

/-! ## The register writes -/

theorem patBits_lt (p : Pattern) : patBits p < 2 ^ p.length := by
  induction p with
  | nil => simp [patBits]
  | cons y p ih =>
    rw [List.length_cons, pow_succ]
    cases y <;> simp only [patBits] <;> omega

theorem mem_of_patternOf {t : MorseTable} {c : Byte} {p : Pattern} (h : patternOf t c = some p) : (c, p) ∈ t := by
  induction t with
  | nil => simp [patternOf] at h
  | cons e t ih =>
    obtain ⟨k, q⟩ := e
    by_cases hk : k = c
    · simp_all [patternOf]
    · exact List.mem_cons_of_mem _ (ih (by simpa [patternOf, hk] using h))

/-- The word of a pattern of at most 5 symbols, its three fields added up (R37, R144). -/
theorem lookupValue_pattern {p : Pattern} (h : p.length ≤ 5) :
    lookupValue (.pattern p) = BitVec.ofNat 32 (2 + 4 * p.length + 32 * patBits p) := by
  have hlen : 2 ||| p.length <<< 2 = 2 + 4 * p.length := by
    rw [Nat.lor_comm, ← Nat.shiftLeft_add_eq_or_of_lt (by omega), Nat.shiftLeft_eq]
    omega
  have hpat : (2 + 4 * p.length) ||| patBits p <<< 5 = 2 + 4 * p.length + 32 * patBits p := by
    rw [Nat.lor_comm, ← Nat.shiftLeft_add_eq_or_of_lt (by omega), Nat.shiftLeft_eq]
    omega
  rw [lookupValue, hlen, hpat]

/-- A legal dictionary gives every code a legal `LOOKUP` (R37, R131, R144). -/
theorem lookupLegal_classify {t : MorseTable} (ht : legalTable t = true) (c : Byte) :
    LookupLegal (lookupValue (classify t c)) := by
  cases hc : classify t c with
  | unsupported => exact .inl rfl
  | space => exact .inr (.inl rfl)
  | pattern p =>
    have hp : patternOf t c = some p := by
      unfold classify at hc
      split at hc
      · cases hc
      · split at hc
        · cases hc; assumption
        · cases hc
    have hlen : 1 ≤ p.length ∧ p.length ≤ 5 := by
      simp only [legalTable, Bool.and_eq_true, List.all_eq_true, decide_eq_true_eq] at ht
      exact ht.2 _ (mem_of_patternOf hp)
    exact .inr (.inr ⟨p.length, patBits p, hlen.1, hlen.2, patBits_lt p, lookupValue_pattern hlen.2⟩)

section
variable {P : Config.Params} {s : State}

theorem Resting.of_writeTuning (h : Resting P s) (f : Nat) : Resting P (writeTuning P f s) := { h with }

/-- A whole load leaves the lines idle. -/
theorem Resting.of_serialLoad (h : Resting P s) (hi : s.initDone = true) (w : Word) : Resting P (serialLoad w s) := by
  rw [serialLoad_eq w s false (by rw [h.linesIdle, hi])]
  exact { h with linesIdle := by simp [hi] }

/-- The drop count of a message that fits the buffer (R36). -/
theorem toNat_ofNat_le_depth (hP : P.Legal) {n : Nat} (hn : n ≤ P.msgDepth) :
    (BitVec.ofNat 16 n).toNat = n := by
  obtain ⟨-, -, -, hdepth, -⟩ := hP
  simp only [BitVec.toNat_ofNat]
  omega

/-- The effect of a command that has passed its checks keeps the registers legal and the lines idle. -/
theorem Resting.of_effectOf (hP : P.Legal) (h : Resting P s) {i : Instr} (hc : checkInstr P i s = none) :
    Resting P (effectOf P i s) := by
  cases i with
  | ddsInit =>
    change Resting P (setInitDone (phases initPhases s))
    rw [initPhases_eq]
    exact { h with linesIdle := rfl }
  | ftwCalc f => exact h.of_writeTuning f
  | ftwLoad w => exact h.of_serialLoad (checkFtwLoad_eq_none.mp hc) w
  | ftwTune f => exact (h.of_writeTuning f).of_serialLoad (checkFtwTune_eq_none.mp hc).1 _
  | morseWpm n =>
    obtain ⟨-, hn⟩ := checkMorseWpm_eq_none.mp hc
    exact { h with wpmLegal := (Nat.mod_le n _).trans hn }
  | msgWr idx ch => exact { h with msgWf := memWrite_wf h.msgWf (checkMsgWr_eq_none.mp hc) }
  | morseLookup ch =>
    obtain ⟨-, -, -, -, htable⟩ := hP
    exact { h with lookupLegal := lookupLegal_classify htable ch }
  | morseTx len =>
    obtain ⟨-, hlen, -⟩ := checkMorseTx_eq_none.mp hc
    have hdrop : dropTotal P.morseTable (msgBytes s.msg len) ≤ P.msgDepth :=
      ((dropTotal_le_length _ _).trans (msgBytes_length_le _ _)).trans hlen
    rw [effectOf, transmit_eq]
    exact { h with keyOff := rfl, indOff := rfl, dropLegal := (toNat_ofNat_le_depth hP hdrop).le.trans hdrop }
  | ctrlSet indEn strict => exact { h with }

end

end Sys2Proof
end

section
/-! PROOFS. The invariant is kept: by each engine's edge, by a clock edge, by a whole transaction, and so by a
step. -/

namespace Sys2Proof

open Machine

section
variable {P : Config.Params} {s : State}

/-! ## Operations that the invariant does not look at -/

theorem MachineInv.countEdge_inv (h : MachineInv P s) (p : Pins) : MachineInv P (countEdge p s) :=
  { h with gapLegal := by rw [countEdge_tickGap]; split <;> omega }

theorem MachineInv.countCycle_inv (h : MachineInv P s) : MachineInv P (countCycle s) := { h with }

theorem MachineInv.popScript_inv (h : MachineInv P s) : MachineInv P (popScript s) := { h with }

theorem MachineInv.forgetTick_inv (h : MachineInv P s) : MachineInv P (forgetTick s) :=
  { h with gapLegal := Nat.zero_le _ }

/-! ## Reset and acceptance -/

theorem MachineInv.resetBlock_inv (h : MachineInv P s) : MachineInv P (resetBlock s) :=
  Resting.inv (s := resetBlock s)
    { msgWf := rfl, wpmLegal := Nat.zero_le _, lookupLegal := .inl rfl, dropLegal := Nat.zero_le _
      faultRecord := by simp, keyOff := rfl, indOff := rfl, gapLegal := h.gapLegal, linesIdle := rfl }
    rfl rfl fun _ => rfl

theorem MachineInv.accept_inv (h : MachineInv P s) (hb : s.busy = false) (hh : s.halted = false) (w : Cmd) :
    MachineInv P (accept w s) :=
  have hrest : Resting P s := h.resting (by simp [h.eng_idle hb, Engine.resting])
  Resting.inv (s := accept w s) { hrest with } rfl rfl (by simp [hh])

/-! ## The sequences begin -/

theorem Resting.startInit_inv (h : Resting P s) (hb : s.busy = true) (hh : s.halted = false)
    (hi : s.initDone = false) (hc : currentInstr s = some .ddsInit) : MachineInv P (startInit s) :=
  Silent.inv (s := startInit s) { h with } nofun ((consistent_initSeq rfl).mpr ⟨hb, Nat.zero_le _, hc⟩)
    (by simp [startInit, beginPhase, enter, hh]) (fun _ => hi) rfl

theorem Resting.startSerial_inv (h : Resting P s) (hb : s.busy = true) (hh : s.halted = false)
    (hi : s.initDone = true)
    (hc : (∃ w, currentInstr s = some (.ftwLoad w)) ∨ ∃ f, currentInstr s = some (.ftwTune f)) :
    MachineInv P (startSerial s) := by
  have hlines : (startSerial s).lines = serialLinesAt (frame (serialWord s)) 0 := by
    rw [← serialPhase_start _ false, ← hi, ← h.linesIdle]
    rfl
  exact Silent.inv (s := startSerial s) { h with } nofun ((consistent_ser rfl).mpr ⟨hb, Nat.zero_le _, hi, hc⟩)
    (by simp [startSerial, beginPhase, enter, hh]) nofun hlines

theorem Resting.startTx_inv (h : Resting P s) (hb : s.busy = true) (hh : s.halted = false) {len : Nat}
    (hi : currentInstr s = some (.morseTx len)) (hc : checkMorseTx P len s = none) : MachineInv P (startTx s) :=
  { h with
    consistent := (consistent_morse rfl).mpr ⟨hb, len, hi, hc, .inl rfl⟩
    dropLegal := Nat.zero_le _
    haltedIdle := by simp [startTx, clearForTx, hh]
    initOnce := nofun
    linesAt := h.linesIdle
    keyAt := rfl
    indAt := rfl
    remAt := nofun
    dropAt := fun _ => ⟨Nat.le_refl 0, Nat.zero_le _⟩ }

/-! ## The check step -/

/-- The start of a command that has passed its checks keeps the invariant. -/
theorem Resting.startInstr_inv (hP : P.Legal) (h : Resting P s) (hb : s.busy = true) (hh : s.halted = false)
    {i : Instr} (hi : currentInstr s = some i) (hc : checkInstr P i s = none) : MachineInv P (startInstr P i s) := by
  have completes : MachineInv P (finish (effectOf P i s)) := (h.of_effectOf hP hc).finish_inv
  cases i with
  | ddsInit => exact h.startInit_inv hb hh (checkDdsInit_eq_none.mp hc) hi
  | ftwCalc f =>
    exact Resting.inv (s := enter .calcWord s) { h with } rfl
      ((consistent_calcWord rfl).mpr ⟨hb, .inl ⟨f, hi⟩⟩) (by simp [enter, hh])
  | ftwLoad w => exact h.startSerial_inv hb hh (checkFtwLoad_eq_none.mp hc) (.inl ⟨w, hi⟩)
  | ftwTune f =>
    exact Resting.inv (s := enter .calcWord s) { h with } rfl
      ((consistent_calcWord rfl).mpr ⟨hb, .inr ⟨⟨f, hi⟩, (checkFtwTune_eq_none.mp hc).1⟩⟩) (by simp [enter, hh])
  | morseTx len => exact h.startTx_inv hb hh hi hc
  | _ => exact completes

/-- A command taken as one transaction ends in the invariant. -/
theorem Resting.settleChecked_inv (hP : P.Legal) (h : Resting P s) : MachineInv P (settleChecked P s) := by
  obtain ⟨⟨code, hcode, heq⟩, -⟩ | ⟨i, -, hc, heq, -⟩ := endCheck_cases P s
  · exact heq ▸ h.takeFault_inv hcode _
  · exact heq ▸ (h.of_effectOf hP hc).finish_inv

end

section
variable {B : Config.Build} {s : State}

theorem MachineInv.checkEdge_inv (hB : B.Legal) (h : MachineInv B.toParams s) (he : s.seq.eng = .check) :
    MachineInv B.toParams (checkEdge B s) := by
  have hb := (consistent_check he).mp h.consistent
  have hrest : Resting B.toParams s := h.resting (by simp [he, Engine.resting])
  obtain heq | heq := checkEdge_cases B s
  · exact heq ▸ h.countCycle_inv
  · rw [heq]
    obtain ⟨-, hend⟩ | ⟨i, hi, hc, -, hend⟩ := endCheck_cases B.toParams s
    · exact hend ▸ hrest.settleChecked_inv hB.1
    · exact hend ▸ hrest.startInstr_inv hB.1 hb (h.not_halted hb) hi hc

/-! ## The DDS engines -/

theorem MachineInv.calcEdge_inv (h : MachineInv B.toParams s) (he : s.seq.eng = .calcWord) :
    MachineInv B.toParams (calcEdge B s) := by
  obtain ⟨hb, hinstr⟩ := (consistent_calcWord he).mp h.consistent
  have hrest : Resting B.toParams s := h.resting (by simp [he, Engine.resting])
  obtain ⟨-, heq⟩ | ⟨f, -, heq⟩ | ⟨f, -, -, heq⟩ | ⟨f, hf, -, heq⟩ := calcEdge_cases B (hinstr.imp_right And.left)
  · exact heq ▸ h.countCycle_inv
  · exact heq ▸ (hrest.of_writeTuning f).finish_inv
  · exact heq ▸ Resting.inv (s := countCycle (writeTuning B.toParams f s)) { hrest with }
      (by simp [countCycle, he, Engine.resting]) ((consistent_calcWord he).mpr ⟨hb, hinstr⟩)
      (by simp [countCycle, h.not_halted hb])
  · have hi : s.initDone = true := (hinstr.resolve_left (by simp [hf])).2
    exact heq ▸ hrest.startSerial_inv hb (h.not_halted hb) hi (.inr ⟨f, hf⟩)

theorem MachineInv.initEdge_inv (h : MachineInv B.toParams s) (he : s.seq.eng = .initSeq) :
    MachineInv B.toParams (initEdge B s) := by
  obtain ⟨hb, hph, hinstr⟩ := (consistent_initSeq he).mp h.consistent
  have hne : s.seq.eng ≠ .morse := by simp [he]
  have hsilent := h.silent (h.key_off hne)
  have hlines : s.lines = initLinesAt s.seq.ph := h.linesAt.trans (linesExpected_initSeq he)
  obtain heq | ⟨hlt, heq⟩ | ⟨hge, heq⟩ := initEdge_cases B s
  · exact heq ▸ h.countCycle_inv
  · have hstep : applyChange (initPhase (s.seq.ph + 1)) s.lines = initLinesAt (s.seq.ph + 1) := by
      rw [hlines]
      obtain hk | hk : s.seq.ph = 0 ∨ s.seq.ph = 1 := by omega
      all_goals rw [hk]; rfl
    exact heq ▸ Silent.inv (s := beginPhase (initPhase (s.seq.ph + 1)) (s.seq.ph + 1) s) { hsilent with } hne
      ((consistent_initSeq (s := beginPhase _ _ s) he).mpr ⟨hb, Nat.succ_le_of_lt hlt, hinstr⟩) h.haltedIdle h.initOnce
      (hstep.trans (linesExpected_initSeq (s := beginPhase _ _ s) he).symm)
  · have hk : s.seq.ph = 2 := by omega
    exact heq ▸ Resting.finish_inv (s := setInitDone s) { hsilent with linesIdle := hlines.trans (by rw [hk]; rfl) }

theorem MachineInv.serialEdge_inv (h : MachineInv B.toParams s) (he : s.seq.eng = .ser) :
    MachineInv B.toParams (serialEdge B s) := by
  obtain ⟨hb, hph, hi, hinstr⟩ := (consistent_ser he).mp h.consistent
  have hne : s.seq.eng ≠ .morse := by simp [he]
  have hsilent := h.silent (h.key_off hne)
  have hlines : s.lines = serialLinesAt (frame (serialWord s)) s.seq.ph :=
    h.linesAt.trans (linesExpected_ser he)
  obtain heq | ⟨hlt, heq⟩ | ⟨hge, heq⟩ := serialEdge_cases B s
  · exact heq ▸ h.countCycle_inv
  · have hstep : applyChange (serialPhase (frame (serialWord s)) (s.seq.ph + 1)) s.lines =
        serialLinesAt (frame (serialWord s)) (s.seq.ph + 1) := by
      rw [hlines, serialPhase_step _ hlt]
    exact heq ▸ Silent.inv (s := beginPhase (serialPhase (frame (serialWord s)) (s.seq.ph + 1)) (s.seq.ph + 1) s)
      { hsilent with } hne ((consistent_ser (s := beginPhase _ _ s) he).mpr ⟨hb, Nat.succ_le_of_lt hlt, hi, hinstr⟩)
      h.haltedIdle h.initOnce
      (hstep.trans (linesExpected_ser (s := beginPhase _ _ s) he).symm)
  · have hk : s.seq.ph = 121 := by omega
    exact heq ▸ Resting.finish_inv (s := setDdsWord (serialWord s) s)
      { hsilent with linesIdle := hlines.trans (by rw [hk, serialLinesAt_last, setDdsWord_initDone, hi]) }

end

/-! ## The keying engine -/

/-- Every segment of a message at a legal speed lasts at least 1 ms (R133, R134). -/
theorem one_le_segmentAt_ms (t : MorseTable) (m : List Byte) {u : Nat} (hu : 1 ≤ u) (ci si sub : Nat) :
    1 ≤ (segmentAt t m u ci si sub).ms := by
  have htail : 1 ≤ tailSeg.ms := by decide
  unfold segmentAt
  split
  · exact htail
  · exact htail
  · change 1 ≤ 4 * u
    omega
  · split
    · change 1 ≤ 2 * u
      omega
    · rename_i y _
      split
      · cases y <;> change 1 ≤ _ * u <;> simp only [markUnits] <;> omega
      · exact hu

section
variable {B : Config.Build} {s : State}

/-- A message that is being sent has no more dropped characters than the buffer has entries. -/
theorem MachineInv.dropTotal_le (h : MachineInv B.toParams s) (he : s.seq.eng = .morse) :
    dropTotal B.morseTable (txBytes s) ≤ B.msgDepth := by
  obtain ⟨-, len, hi, hc, -⟩ := (consistent_morse he).mp h.consistent
  obtain ⟨-, hlen, -⟩ := checkMorseTx_eq_none.mp hc
  have hbytes : txBytes s = msgBytes s.msg len := by simp [txBytes, txLen, hi]
  rw [hbytes]
  exact ((dropTotal_le_length _ _).trans (msgBytes_length_le _ _)).trans hlen

/-- The invariant during a message, with the count of dropped characters anywhere between those that are due and
those of the message (R153). -/
theorem MachineInv.setDropCount_inv (hB : B.Legal) (h : MachineInv B.toParams s) (he : s.seq.eng = .morse) {n : Nat}
    (hlow : dropTotal B.morseTable ((txBytes s).take s.seq.ci) ≤ n) (hhigh : n ≤ dropTotal B.morseTable (txBytes s)) :
    MachineInv B.toParams (setDropCount n s) := by
  have hn : (BitVec.ofNat 16 n).toNat = n := toNat_ofNat_le_depth hB.1 (hhigh.trans (h.dropTotal_le he))
  exact { h with
    dropLegal := hn.le.trans (hhigh.trans (h.dropTotal_le he))
    dropAt := fun _ => ⟨hlow.trans hn.ge, hn.le.trans hhigh⟩ }

/-- A transmission in its tail ends with the key off and the lines idle (R151 (4)). -/
theorem MachineInv.resting_of_tail (h : MachineInv B.toParams s) (he : s.seq.eng = .morse)
    (hc : classAt B.morseTable (txBytes s) s.seq.ci = none) : Resting B.toParams s := by
  have hkey : s.key = false := by
    rw [h.keyAt]
    simp [keyExpected, currentSegment, segmentAt, hc, tailSeg]
  exact { h.silent hkey with linesIdle := h.linesAt.trans (linesExpected_morse he) }

/-- The start of a segment at a position of the message keeps the invariant, whatever the drop count between its
bounds. -/
theorem MachineInv.beginSegment_inv (hB : B.Legal) (h : MachineInv B.toParams s) (he : s.seq.eng = .morse)
    {q : Sequencer} (hq : positionExists B.morseTable (txBytes s) q = true) {n : Nat}
    (hlow : dropTotal B.morseTable ((txBytes s).take q.ci) ≤ n) (hhigh : n ≤ dropTotal B.morseTable (txBytes s)) :
    MachineInv B.toParams (setDropCount n (beginSegment B.morseTable q.ci q.si q.sub s)) := by
  obtain ⟨hb, len, hi, hc, -⟩ := (consistent_morse he).mp h.consistent
  obtain ⟨hwpm, -, -⟩ := checkMorseTx_eq_none.mp hc
  have hn : (BitVec.ofNat 16 n).toNat = n := toNat_ofNat_le_depth hB.1 (hhigh.trans (h.dropTotal_le he))
  have hms := one_le_segmentAt_ms B.morseTable (txBytes s) (unitMs_pos hwpm h.wpmLegal) q.ci q.si q.sub
  obtain ⟨g, hg⟩ : ∃ g, segmentAt B.morseTable (txBytes s) (unitMs s.wpm) q.ci q.si q.sub = g := ⟨_, rfl⟩
  rw [beginSegment_eq, hg]
  rw [hg] at hms
  have hcur : currentSegment B.toParams (setDropCount n (atSegment q g s)) = g := hg
  exact { h with
    consistent := (consistent_morse (s := setDropCount n (atSegment q g s)) he).mpr ⟨hb, len, hi, hc, .inr hq⟩
    dropLegal := hn.le.trans (hhigh.trans (h.dropTotal_le he))
    linesAt := (h.linesAt.trans (linesExpected_morse he)).trans
      (linesExpected_morse (s := setDropCount n (atSegment q g s)) he).symm
    keyAt := by
      rw [keyExpected, hcur]
      simp [atSegment, he]
    indAt := rfl
    remAt := fun _ _ => ⟨hms, hcur.symm ▸ Nat.le_refl _⟩
    dropAt := fun _ => ⟨hlow.trans hn.ge, hn.le.trans hhigh⟩ }

theorem MachineInv.morseEdge_inv (hB : B.Legal) (h : MachineInv B.toParams s) (he : s.seq.eng = .morse) (p : Pins) :
    MachineInv B.toParams (morseEdge B p s) := by
  obtain ⟨hb, len, hi, hc, hex⟩ := (consistent_morse he).mp h.consistent
  have counted {t : State} (ht : keyEdge B p s = t) (hbusy : t.busy = true)
      (hinv : ∀ n, dropTotal B.morseTable ((txBytes t).take t.seq.ci) ≤ n → n ≤ dropTotal B.morseTable (txBytes t) →
        MachineInv B.toParams (setDropCount n t)) : MachineInv B.toParams (morseEdge B p s) := by
    simp only [morseEdge, ht, hbusy, if_true]
    exact hinv _ (le_max_left ..) (max_le (dropTotal_take_le ..) (min_le_left ..))
  obtain heq | ⟨ha, hrem, heq⟩ | ⟨-, hclass, heq⟩ | ⟨q, heq, hbegins⟩ := keyEdge_cases B p hex
  · exact counted heq hb fun n => h.setDropCount_inv hB he
  · have hless : MachineInv B.toParams (setSeq { s.seq with rem := s.seq.rem - 1 } s) := { h with
      remAt := fun _ _ => ⟨Nat.le_sub_of_add_le hrem, (Nat.sub_le ..).trans (h.remAt he ha).2⟩ }
    exact counted heq hb fun n => hless.setDropCount_inv hB he
  · simp only [morseEdge, heq, finish_busy]
    exact (h.resting_of_tail he hclass).finish_inv
  · exact counted heq hb fun n => h.beginSegment_inv hB he hbegins.position

/-! ## A clock edge and a step -/

/-- An edge of a command in progress keeps the invariant, whichever engine runs. -/
theorem MachineInv.busyEdge_inv (hB : B.Legal) (h : MachineInv B.toParams s) (p : Pins) :
    MachineInv B.toParams (busyEdge B p s) := by
  cases he : s.seq.eng with
  | idle => simpa [busyEdge, he] using h
  | check => simpa [busyEdge, he] using h.checkEdge_inv hB he
  | calcWord => simpa [busyEdge, he] using h.calcEdge_inv he
  | initSeq => simpa [busyEdge, he] using h.initEdge_inv he
  | ser => simpa [busyEdge, he] using h.serialEdge_inv he
  | morse => simpa [busyEdge, he] using h.morseEdge_inv hB he p

theorem MachineInv.blockEdge_inv (hB : B.Legal) (h : MachineInv B.toParams s) (p : Pins) :
    MachineInv B.toParams (blockEdge B p s) := by
  obtain ⟨-, heq⟩ | ⟨-, -, heq⟩ | ⟨-, hb, hh, -, heq⟩ | ⟨-, -, -, heq⟩ := blockEdge_cases B p s
  · exact heq ▸ h.resetBlock_inv
  · exact heq ▸ h.busyEdge_inv hB p
  · exact heq ▸ h.accept_inv hb hh _
  · rw [heq]
    exact h

theorem MachineInv.clockEdge_inv (hB : B.Legal) (h : MachineInv B.toParams s) (p : Pins) :
    MachineInv B.toParams (clockEdge B p s) := (h.blockEdge_inv hB p).countEdge_inv p

theorem MachineInv.clockRun_inv (hB : B.Legal) (h : MachineInv B.toParams s) (ps : List Pins) :
    MachineInv B.toParams (clockRun B ps s) := by
  induction ps generalizing s with
  | nil => exact h
  | cons p ps ih => exact ih (h.clockEdge_inv hB p)

theorem MachineInv.stepIn_inv (hB : B.Legal) (h : MachineInv B.toParams s) {t : State} (hstep : stepIn B s = .next t) :
    MachineInv B.toParams t := by
  obtain ⟨-, ⟨p, -, -, rfl, -⟩ | ⟨p, rest, -, rfl⟩ | ⟨w, rest, -, hready, htrans⟩⟩ := stepBy_cases hstep
  · exact h.clockEdge_inv hB p
  · exact h.popScript_inv.clockEdge_inv hB p
  · obtain ⟨hb, hh⟩ : s.busy = false ∧ s.halted = false := by simpa [cmdReady] using hready
    have hacc := h.popScript_inv.forgetTick_inv.accept_inv hb hh w
    rw [transactionBy_eq] at htrans
    cases htrans
    exact (hacc.resting rfl).settleChecked_inv hB.1

end

end Sys2Proof

namespace Sys2Proof.Proofs

open Machine

/-- Settles O48: a step is a clock edge or a transaction, and each engine's edge and each command's end keep the
invariant. -/
theorem stepKeepsInv : Obligations.StepKeepsInv := by
  refine ⟨fun s t h hstep => ?_, fun B s t hB h hstep => h.stepIn_inv hB hstep⟩
  rw [step_eq_stepIn] at hstep
  exact MachineInv.stepIn_inv hardwareBuild_legal h hstep

end Sys2Proof.Proofs
end

section
/-! PROOFS. The clock-level run of a command ends in the state of the transaction. `settle` says, for each state of
the sequencer, where the command in progress ends when nothing interrupts it; no clock edge changes that end. -/

namespace Sys2Proof.Machine

/-! ## Operations that runs of phases and of segments do not look at -/

theorem emitAll_commutes {op : State → State} (hop : ∀ g s, emit g (op s) = op (emit g s)) (gs : List Segment)
    (s : State) : emitAll gs (op s) = op (emitAll gs s) := by
  induction gs generalizing s with
  | nil => rfl
  | cons g gs ih => rw [emitAll_cons, emitAll_cons, hop, ih]

@[simp] theorem phases_setSeq (cs : List LineChange) (q : Sequencer) (s : State) :
    phases cs (setSeq q s) = setSeq q (phases cs s) := phases_commutes (fun _ _ => rfl) cs s

@[simp] theorem emitAll_setSeq (gs : List Segment) (q : Sequencer) (s : State) :
    emitAll gs (setSeq q s) = setSeq q (emitAll gs s) := emitAll_commutes (fun _ _ => rfl) gs s

@[simp] theorem effectOf_setSeq (P : Config.Params) (i : Instr) (q : Sequencer) (s : State) :
    effectOf P i (setSeq q s) = setSeq q (effectOf P i s) := effectOf_commutes (fun _ _ => rfl) P i s

@[simp] theorem serialLoad_setSeq (w : Word) (q : Sequencer) (s : State) :
    serialLoad w (setSeq q s) = setSeq q (serialLoad w s) := effectOf_setSeq hardware (.ftwLoad w) q s

@[simp] theorem checkInstr_setSeq (P : Config.Params) (i : Instr) (q : Sequencer) (s : State) :
    checkInstr P i (setSeq q s) = checkInstr P i s := checkInstr_withControl P i (setSeq q s) s

/-! The next five hold by unfolding, but a proof that says so lets `simp` rewrite with them unseen, and Lean's kernel
then checks such a step by running a load's 122 phases; so each is proved by a case split. -/

@[simp] theorem finish_setSeq (q : Sequencer) (s : State) : finish (setSeq q s) = finish s := by cases s; rfl

@[simp] theorem takeFault_setSeq (code : FaultCode) (opc : Byte) (q : Sequencer) (s : State) :
    takeFault code opc (setSeq q s) = takeFault code opc s := by cases s; rfl

@[simp] theorem setInitDone_setSeq (q : Sequencer) (s : State) :
    setInitDone (setSeq q s) = setSeq q (setInitDone s) := by cases s; rfl

@[simp] theorem setDdsWord_setSeq (w : Word) (q : Sequencer) (s : State) :
    setDdsWord w (setSeq q s) = setSeq q (setDdsWord w s) := by cases s; rfl

@[simp] theorem setDropCount_setSeq (n : Nat) (q : Sequencer) (s : State) :
    setDropCount n (setSeq q s) = setSeq q (setDropCount n s) := by cases s; rfl

theorem effectOf_forgetTime (P : Config.Params) (i : Instr) (s : State) :
    effectOf P i (forgetTime s) = forgetTime (effectOf P i s) := effectOf_commutes (fun _ _ => rfl) P i s

theorem serialLoad_forgetTime (w : Word) (s : State) : serialLoad w (forgetTime s) = forgetTime (serialLoad w s) :=
  effectOf_forgetTime hardware (.ftwLoad w) s

theorem finish_forgetTime (s : State) : finish (forgetTime s) = forgetTime (finish s) := rfl

theorem setInitDone_forgetTime (s : State) : setInitDone (forgetTime s) = forgetTime (setInitDone s) := rfl

theorem setDdsWord_forgetTime (w : Word) (s : State) :
    setDdsWord w (forgetTime s) = forgetTime (setDdsWord w s) := rfl

theorem setDropCount_forgetTime (n : Nat) (s : State) :
    setDropCount n (forgetTime s) = forgetTime (setDropCount n s) := rfl

theorem settleChecked_forgetTime (P : Config.Params) (s : State) :
    settleChecked P (forgetTime s) = forgetTime (settleChecked P s) := by
  have hseq : (forgetTime s).seq = s.seq := rfl
  have hcheck (i : Instr) : checkInstr P i (forgetTime s) = checkInstr P i s :=
    checkInstr_withControl P i (forgetTime s) s
  simp only [settleChecked, hseq, hcheck]
  split
  · rfl
  · rename_i i _
    split
    · rfl
    · rw [effectOf_forgetTime, finish_forgetTime]

/-! ## The phases still to come -/

/-- The phases of a sequence of `n` from its phase `k` on. -/
def phasesFrom (n : Nat) (f : Nat → LineChange) (k : Nat) : List LineChange := ((List.range n).drop k).map f

theorem phasesFrom_of_lt {n k : Nat} (f : Nat → LineChange) (hk : k < n) :
    phasesFrom n f k = f k :: phasesFrom n f (k + 1) := by
  rw [phasesFrom, List.drop_eq_getElem_cons (by simpa using hk)]
  simp [phasesFrom]

theorem phasesFrom_of_le {n k : Nat} (f : Nat → LineChange) (hk : n ≤ k) : phasesFrom n f k = [] := by
  simp [phasesFrom, hk]

theorem initPhases_from : initPhases = initPhase 0 :: phasesFrom 3 initPhase 1 := 
  phasesFrom_of_lt (n := 3) (k := 0) initPhase (by decide)

theorem serialPhases_from (w : Word) :
    serialPhases w = serialPhase (frame w) 0 :: phasesFrom 122 (serialPhase (frame w)) 1 :=
  phasesFrom_of_lt (n := 122) (k := 0) (serialPhase (frame w)) (by decide)

/-! ## Where the command in progress ends -/

/-- The state in which the command in progress ends, taken from the state of the sequencer at once: what is left of
its phases or its segments, its last register write, and completion; while its checks run, the transaction's end. -/
def settle (B : Config.Build) (s : State) : State :=
  match s.seq.eng with
  | .idle => s
  | .check => settleChecked B.toParams s
  | .calcWord =>
    match currentInstr s with
    | some (.ftwTune f) =>
      if s.seq.cyc < B.calcCycles then finish (effectOf B.toParams (.ftwTune f) s) else finish (serialLoad s.ftw s)
    | some i => finish (effectOf B.toParams i s)
    | none => s
  | .initSeq => finish (setInitDone (phases (phasesFrom 3 initPhase (s.seq.ph + 1)) s))
  | .ser =>
    finish (setDdsWord (serialWord s) (phases (phasesFrom 122 (serialPhase (frame (serialWord s))) (s.seq.ph + 1)) s))
  | .morse =>
    finish (setDropCount (dropTotal B.morseTable (txBytes s)) (emitAll (pendingSegs B.morseTable s) s))

section
variable {B : Config.Build} {s : State}

theorem settle_idle (he : s.seq.eng = .idle) : settle B s = s := by simp [settle, he]

theorem settle_check (he : s.seq.eng = .check) : settle B s = settleChecked B.toParams s := by simp [settle, he]

theorem settle_ftwCalc (he : s.seq.eng = .calcWord) {f : Nat} (hi : currentInstr s = some (.ftwCalc f)) :
    settle B s = finish (writeTuning B.toParams f s) := by
  simp [settle, he, hi, effectOf]

/-- Until its word is written, FTW.TUNE has its whole effect to come. -/
theorem settle_ftwTune (he : s.seq.eng = .calcWord) {f : Nat} (hi : currentInstr s = some (.ftwTune f))
    (hcyc : s.seq.cyc < B.calcCycles) : settle B s = finish (effectOf B.toParams (.ftwTune f) s) := by
  simp [settle, he, hi, hcyc]

/-- Once its word is written, FTW.TUNE has the load of `FTW` to come. -/
theorem settle_ftwTune_written (he : s.seq.eng = .calcWord) {f : Nat} (hi : currentInstr s = some (.ftwTune f))
    (hcyc : B.calcCycles ≤ s.seq.cyc) : settle B s = finish (serialLoad s.ftw s) := by
  simp [settle, he, hi, not_lt.mpr hcyc]

theorem settle_initSeq (he : s.seq.eng = .initSeq) :
    settle B s = finish (setInitDone (phases (phasesFrom 3 initPhase (s.seq.ph + 1)) s)) := by
  simp [settle, he]

theorem settle_ser (he : s.seq.eng = .ser) : settle B s = finish (setDdsWord (serialWord s)
    (phases (phasesFrom 122 (serialPhase (frame (serialWord s))) (s.seq.ph + 1)) s)) := by
  simp [settle, he]

theorem settle_morse (he : s.seq.eng = .morse) : settle B s =
    finish (setDropCount (dropTotal B.morseTable (txBytes s)) (emitAll (pendingSegs B.morseTable s) s)) := by
  simp [settle, he]

end

/-! ## The operands of the command in progress, read from the latched word -/

theorem currentInstr_congr {s t : State} (h : t.seq.opw = s.seq.opw) : currentInstr t = currentInstr s := by
  rw [currentInstr, currentInstr, h]

theorem serialWord_congr {s t : State} (h : t.seq.opw = s.seq.opw) (hftw : t.ftw = s.ftw) :
    serialWord t = serialWord s := by
  rw [serialWord, serialWord, currentInstr_congr h, hftw]

theorem txBytes_congr {s t : State} (h : t.seq.opw = s.seq.opw) (hmsg : t.msg = s.msg) : txBytes t = txBytes s := by
  rw [txBytes, txBytes, txLen, txLen, currentInstr_congr h, hmsg]

theorem pendingSegs_congr {t : MorseTable} {s s' : State} (h : s'.seq.opw = s.seq.opw) (hmsg : s'.msg = s.msg)
    (hwpm : s'.wpm = s.wpm) (halign : s'.seq.align = s.seq.align) (hci : s'.seq.ci = s.seq.ci)
    (hsi : s'.seq.si = s.seq.si) (hsub : s'.seq.sub = s.seq.sub) : pendingSegs t s' = pendingSegs t s := by
  simp only [pendingSegs, restSegs, txBytes_congr h hmsg, hwpm, halign, hci, hsi, hsub]

/-- Where a command ends does not depend on how many cycles have passed or milliseconds are left. -/
theorem settle_setSeq (B : Config.Build) {s : State} {q : Sequencer} (he : s.seq.eng ≠ .idle)
    (hcalc : s.seq.eng ≠ .calcWord) (hq : q = { s.seq with cyc := q.cyc, rem := q.rem }) :
    settle B (setSeq q s) = settle B s := by
  have hopw : q.opw = s.seq.opw := by rw [hq]
  have heng : q.eng = s.seq.eng := by rw [hq]
  have hph : q.ph = s.seq.ph := by rw [hq]
  have hword := serialWord_congr (s := s) (t := setSeq q s) hopw rfl
  have hbytes := txBytes_congr (s := s) (t := setSeq q s) hopw rfl
  have hsegs := pendingSegs_congr (t := B.morseTable) (s := s) (s' := setSeq q s) hopw rfl rfl
    (by rw [setSeq_seq, hq]) (by rw [setSeq_seq, hq]) (by rw [setSeq_seq, hq]) (by rw [setSeq_seq, hq])
  cases hs : s.seq.eng with
  | idle => exact absurd hs he
  | calcWord => exact absurd hs hcalc
  | check =>
    rw [settle_check (s := setSeq q s) (heng.trans hs), settle_check hs]
    simp [settleChecked, hopw]
  | initSeq =>
    rw [settle_initSeq (s := setSeq q s) (heng.trans hs), settle_initSeq hs]
    simp [hph]
  | ser =>
    rw [settle_ser (s := setSeq q s) (heng.trans hs), settle_ser hs, hword]
    simp [hph]
  | morse =>
    rw [settle_morse (s := setSeq q s) (heng.trans hs), settle_morse hs, hbytes, hsegs]
    simp

theorem settle_countCycle (B : Config.Build) {s : State} (he : s.seq.eng ≠ .idle) (hcalc : s.seq.eng ≠ .calcWord) :
    settle B (countCycle s) = settle B s := settle_setSeq B he hcalc rfl

section
variable {B : Config.Build} {s : State}

/-! ## The starts of the sequences -/

/-- DDS.INIT begins: I0 is one of its three phases. -/
theorem settle_startInit : settle B (startInit s) = finish (setInitDone (phases initPhases s)) := by
  have hstart : startInit s =
      setSeq { Sequencer.idle with eng := .initSeq, opw := s.seq.opw } (phase (initPhase 0) s) := rfl
  rw [hstart, settle_initSeq rfl, initPhases_from]
  simp [Sequencer.idle]

/-- A load begins: S0 is one of its 122 phases. -/
theorem settle_startSerial : settle B (startSerial s) = finish (serialLoad (serialWord s) s) := by
  have hword : serialWord (startSerial s) = serialWord s := serialWord_congr rfl rfl
  have hstart : startSerial s =
      setSeq { Sequencer.idle with eng := .ser, opw := s.seq.opw }
        (phase (serialPhase (frame (serialWord s)) 0) s) := rfl
  rw [settle_ser (s := startSerial s) rfl, hword, serialLoad, serialPhases_from, hstart]
  simp [Sequencer.idle]

/-- A transmission begins with both keying lines off, and every segment is still to come. -/
theorem settle_startTx {len : Nat} (hi : currentInstr s = some (.morseTx len)) :
    settle B (startTx s) = finish (transmit B.toParams len s) := by
  have hbytes : txBytes (startTx s) = msgBytes s.msg len := by
    rw [txBytes_congr (s := s) (t := startTx s) rfl rfl]
    simp [txBytes, txLen, hi]
  have hpending : pendingSegs B.morseTable (startTx s) = segs B.morseTable (msgBytes s.msg len) (unitMs s.wpm) := by
    rw [← hbytes]
    rfl
  rw [settle_morse (s := startTx s) rfl, hbytes, hpending]
  simp [startTx, transmit]

/-- A command that has passed its checks starts toward its effect. -/
theorem settle_startInstr (hB : B.Legal) {i : Instr} (hi : currentInstr s = some i) :
    settle B (startInstr B.toParams i s) = finish (effectOf B.toParams i s) := by
  cases i with
  | ddsInit => exact settle_startInit
  | ftwCalc f => exact settle_ftwCalc (s := enter .calcWord s) rfl hi
  | ftwLoad w =>
    have hw : serialWord s = w := by simp [serialWord, hi]
    rw [startInstr, settle_startSerial, hw, effectOf_ftwLoad]
  | ftwTune f =>
    obtain ⟨-, -, hcyc⟩ := hB
    rw [startInstr, settle_ftwTune (s := enter .calcWord s) rfl hi hcyc]
    simp [enter]
  | morseTx len => exact settle_startTx hi
  | _ => rfl

/-! ## No edge changes where a command ends -/

theorem settle_checkEdge (hB : B.Legal) (he : s.seq.eng = .check) : settle B (checkEdge B s) = settle B s := by
  obtain heq | heq := checkEdge_cases B s
  · rw [heq, settle_countCycle B (by simp [he]) (by simp [he])]
  · rw [heq, settle_check he]
    obtain ⟨⟨code, -, hset⟩, hend⟩ | ⟨i, hi, -, hset, hend⟩ := endCheck_cases B.toParams s
    · rw [hend, hset]
      rfl
    · rw [hend, hset, settle_startInstr hB hi]

theorem settle_calcEdge (he : s.seq.eng = .calcWord)
    (hi : (∃ f, currentInstr s = some (.ftwCalc f)) ∨ ∃ f, currentInstr s = some (.ftwTune f)) :
    settle B (calcEdge B s) = settle B s := by
  obtain ⟨hcyc, heq⟩ | ⟨f, hf, heq⟩ | ⟨f, hf, hcyc, heq⟩ | ⟨f, hf, hcyc, heq⟩ := calcEdge_cases B hi
  · rw [heq]
    obtain ⟨f, hf⟩ | ⟨f, hf⟩ := hi
    · rw [settle_ftwCalc (s := countCycle s) he hf, settle_ftwCalc he hf]
      rfl
    · rw [settle_ftwTune (s := countCycle s) he hf hcyc, settle_ftwTune he hf (by omega)]
      simp [countCycle]
  · rw [heq, settle_ftwCalc he hf]
    rfl
  · rw [heq, settle_ftwTune_written (s := countCycle (writeTuning B.toParams f s)) he hf hcyc.ge,
      settle_ftwTune he hf (by omega)]
    simp [countCycle]
  · have hw : serialWord s = s.ftw := by simp [serialWord, hf]
    rw [heq, settle_startSerial, settle_ftwTune_written he hf (by omega), hw]

theorem settle_initEdge (he : s.seq.eng = .initSeq) : settle B (initEdge B s) = settle B s := by
  obtain heq | ⟨hlt, heq⟩ | ⟨hge, heq⟩ := initEdge_cases B s
  · rw [heq, settle_countCycle B (by simp [he]) (by simp [he])]
  · rw [heq, settle_initSeq (s := beginPhase _ _ s) he, settle_initSeq he,
      phasesFrom_of_lt (k := s.seq.ph + 1) _ (by omega)]
    simp [beginPhase]
  · rw [heq, settle_initSeq he, phasesFrom_of_le _ (by omega)]
    rfl

theorem settle_serialEdge (he : s.seq.eng = .ser) : settle B (serialEdge B s) = settle B s := by
  obtain heq | ⟨hlt, heq⟩ | ⟨hge, heq⟩ := serialEdge_cases B s
  · rw [heq, settle_countCycle B (by simp [he]) (by simp [he])]
  · have hword (c : LineChange) (k : Nat) : serialWord (beginPhase c k s) = serialWord s := serialWord_congr rfl rfl
    rw [heq, settle_ser (s := beginPhase _ _ s) he, settle_ser he, hword,
      phasesFrom_of_lt (k := s.seq.ph + 1) _ (by omega)]
    simp [beginPhase]
  · rw [heq, settle_ser he, phasesFrom_of_le _ (by omega)]
    rfl

/-- While a message is sent the drop count so far does not matter: the last one is that of the whole message. -/
theorem settle_setDropCount (he : s.seq.eng = .morse) (n : Nat) : settle B (setDropCount n s) = settle B s := by
  have hbytes : txBytes (setDropCount n s) = txBytes s := txBytes_congr rfl rfl
  have hsegs : pendingSegs B.morseTable (setDropCount n s) = pendingSegs B.morseTable s :=
    pendingSegs_congr rfl rfl rfl rfl rfl rfl rfl
  rw [settle_morse (s := setDropCount n s) he, settle_morse he, hbytes, hsegs,
    emitAll_commutes (op := setDropCount n) fun _ _ => rfl]
  rfl

theorem settle_beginSegment (he : s.seq.eng = .morse) {q : Sequencer}
    (hq : Begins B.morseTable s (pendingSegs B.morseTable s) q) :
    settle B (beginSegment B.morseTable q.ci q.si q.sub s) = settle B s := by
  have hpending := hq.pending_eq
  rw [beginSegment_eq]
  generalize segmentAt B.morseTable (txBytes s) (unitMs s.wpm) q.ci q.si q.sub = g at hpending
  have hbytes : txBytes (atSegment q g s) = txBytes s := txBytes_congr rfl rfl
  have hrest : pendingSegs B.morseTable (atSegment q g s) = restSegs B.morseTable (txBytes s) (unitMs s.wpm) q := by
    rw [← hbytes]
    rfl
  rw [settle_morse (s := atSegment q g s) he, settle_morse he, hbytes, hrest, hpending, emitAll_cons, atSegment]
  simp

/-- After the tail the count of dropped characters is that of the message, so completion is all that is left. -/
theorem settle_tail (h : MachineInv B.toParams s) (he : s.seq.eng = .morse) (ha : s.seq.align = false)
    (hc : classAt B.morseTable (txBytes s) s.seq.ci = none) : settle B s = finish s := by
  obtain ⟨hlow, hhigh⟩ := h.dropAt he
  rw [List.take_of_length_le (classAt_eq_none.mp hc)] at hlow
  have hdrop : BitVec.ofNat 16 (dropTotal B.morseTable (txBytes s)) = s.dropCount := by
    rw [le_antisymm hlow hhigh, BitVec.ofNat_toNat, BitVec.setWidth_eq]
  have hpending : pendingSegs B.morseTable s = [] := by simp [pendingSegs, restSegs, ha, hc]
  rw [settle_morse he, hpending, emitAll_nil, setDropCount, hdrop]

theorem settle_morseEdge (h : MachineInv B.toParams s) (he : s.seq.eng = .morse) (p : Pins) :
    settle B (morseEdge B p s) = settle B s := by
  obtain ⟨hb, len, -, -, hex⟩ := (consistent_morse he).mp h.consistent
  have counted {t : State} (ht : keyEdge B p s = t) (hbusy : t.busy = true) (het : t.seq.eng = .morse) :
      settle B (morseEdge B p s) = settle B t := by
    simp only [morseEdge, ht, hbusy, if_true]
    exact settle_setDropCount het _
  obtain heq | ⟨-, -, heq⟩ | ⟨ha, hclass, heq⟩ | ⟨q, heq, hbegins⟩ := keyEdge_cases B p hex
  · exact counted heq hb he
  · exact (counted heq hb he).trans (settle_setSeq B (by simp [he]) (by simp [he]) rfl)
  · simp only [morseEdge, heq, finish_busy]
    exact (settle_tail h he ha hclass).symm
  · exact (counted heq hb he).trans (settle_beginSegment he hbegins)

theorem settle_busyEdge (hB : B.Legal) (h : MachineInv B.toParams s) (p : Pins) :
    settle B (busyEdge B p s) = settle B s := by
  cases he : s.seq.eng with
  | idle => simp [busyEdge, he]
  | check => simpa [busyEdge, he] using settle_checkEdge hB he
  | calcWord =>
    obtain ⟨-, hi⟩ := (consistent_calcWord he).mp h.consistent
    simpa [busyEdge, he] using settle_calcEdge he (hi.imp_right And.left)
  | initSeq => simpa [busyEdge, he] using settle_initEdge he
  | ser => simpa [busyEdge, he] using settle_serialEdge he
  | morse => simpa [busyEdge, he] using settle_morseEdge h he p

/-! ## Runs of the clock -/

/-- Where a command ends does not depend on the clock-level bookkeeping. -/
theorem settle_forgetTime (h : MachineInv B.toParams s) : settle B (forgetTime s) = forgetTime (settle B s) := by
  cases he : s.seq.eng with
  | idle => rw [settle_idle (s := forgetTime s) he, settle_idle he]
  | check => rw [settle_check (s := forgetTime s) he, settle_check he, settleChecked_forgetTime]
  | calcWord =>
    obtain ⟨-, ⟨f, hf⟩ | ⟨⟨f, hf⟩, -⟩⟩ := (consistent_calcWord he).mp h.consistent
    · rw [settle_ftwCalc (s := forgetTime s) he hf, settle_ftwCalc he hf]
      rfl
    · obtain hcyc | hcyc := lt_or_ge s.seq.cyc B.calcCycles
      · rw [settle_ftwTune (s := forgetTime s) he hf hcyc, settle_ftwTune he hf hcyc, effectOf_forgetTime,
          finish_forgetTime]
      · rw [settle_ftwTune_written (s := forgetTime s) he hf hcyc, settle_ftwTune_written he hf hcyc,
          serialLoad_forgetTime, finish_forgetTime]
        rfl
  | initSeq =>
    rw [settle_initSeq (s := forgetTime s) he, settle_initSeq he, phases_commutes (op := forgetTime) fun _ _ => rfl,
      setInitDone_forgetTime, finish_forgetTime]
    rfl
  | ser =>
    rw [settle_ser (s := forgetTime s) he, settle_ser he, serialWord_congr (s := s) (t := forgetTime s) rfl rfl,
      phases_commutes (op := forgetTime) fun _ _ => rfl, setDdsWord_forgetTime, finish_forgetTime]
    rfl
  | morse =>
    rw [settle_morse (s := forgetTime s) he, settle_morse he, txBytes_congr (s := s) (t := forgetTime s) rfl rfl,
      pendingSegs_congr (s := s) (s' := forgetTime s) rfl rfl rfl rfl rfl rfl rfl,
      emitAll_commutes (op := forgetTime) fun _ _ => rfl, setDropCount_forgetTime, finish_forgetTime]

/-- An edge with no reset and no offer moves the command in progress toward the same end. -/
theorem settle_clockEdge (hB : B.Legal) (h : MachineInv B.toParams s) {p : Pins} (hrst : p.rst = false)
    (hvalid : p.cmdValid = false) : forgetTime (settle B (clockEdge B p s)) = forgetTime (settle B s) := by
  have hblock : settle B (blockEdge B p s) = settle B s := by
    obtain ⟨hr, -⟩ | ⟨-, -, heq⟩ | ⟨-, -, -, hv, -⟩ | ⟨-, -, -, heq⟩ := blockEdge_cases B p s
    · simp [hrst] at hr
    · rw [heq, settle_busyEdge hB h]
    · simp [hvalid] at hv
    · rw [heq]
  calc forgetTime (settle B (clockEdge B p s))
      = settle B (forgetTime (clockEdge B p s)) := (settle_forgetTime (h.clockEdge_inv hB p)).symm
    _ = settle B (forgetTime (blockEdge B p s)) := rfl
    _ = forgetTime (settle B (blockEdge B p s)) := settle_forgetTime (h.blockEdge_inv hB p)
    _ = forgetTime (settle B s) := by rw [hblock]

/-- So does a run of such edges. -/
theorem settle_clockRun (hB : B.Legal) (h : MachineInv B.toParams s) {ps : List Pins} (hrst : noReset ps = true)
    (hvalid : noOffer ps = true) : forgetTime (settle B (clockRun B ps s)) = forgetTime (settle B s) := by
  induction ps generalizing s with
  | nil => rfl
  | cons p ps ih =>
    simp only [noReset, noOffer, List.all_cons, Bool.and_eq_true, Bool.not_eq_true'] at hrst hvalid
    rw [clockRun_cons, ih (h.clockEdge_inv hB p) hrst.2 hvalid.2, settle_clockEdge hB h hrst.1 hvalid.1]

/-- A ready block accepts an offered word (R23). -/
theorem clockEdge_offer (hb : s.busy = false) (hh : s.halted = false) (w : Cmd) (tick : Bool) :
    clockEdge B (offerPins w tick) s = countEdge (offerPins w tick) (accept w s) := by
  simp [clockEdge, blockEdge, cmdReady, offerPins, hb, hh]

end

end Sys2Proof.Machine

namespace Sys2Proof.Proofs

open Machine

/-- Settles O53: after the offer the command's end is the transaction's, the run does not change that end, and a block
that is not busy has reached it. -/
theorem clockRunIsTransaction : Obligations.ClockRunIsTransaction := by
  intro B s w tick ps hB h hready hrst hvalid hdone
  obtain ⟨hb, hh⟩ := hready
  have hoffered : MachineInv B.toParams (clockEdge B (offerPins w tick) s) := h.clockEdge_inv hB _
  have haccepted : MachineInv B.toParams (accept w s) := h.accept_inv hb hh w
  refine ⟨settleChecked B.toParams (accept w s), transactionBy_eq B.toParams w s, ?_⟩
  calc forgetTime (clockRun B ps (clockEdge B (offerPins w tick) s))
      = forgetTime (settle B (clockRun B ps (clockEdge B (offerPins w tick) s))) := by
        rw [settle_idle ((hoffered.clockRun_inv hB ps).eng_idle hdone)]
    _ = forgetTime (settle B (clockEdge B (offerPins w tick) s)) := settle_clockRun hB hoffered hrst hvalid
    _ = settle B (forgetTime (clockEdge B (offerPins w tick) s)) := (settle_forgetTime hoffered).symm
    _ = settle B (forgetTime (accept w s)) := by rw [clockEdge_offer hb hh]; rfl
    _ = forgetTime (settle B (accept w s)) := settle_forgetTime haccepted
    _ = forgetTime (settleChecked B.toParams (accept w s)) := by rw [settle_check (s := accept w s) rfl]

end Sys2Proof.Proofs
end

section
/-! PROOFS. What a clock edge does in each situation of the block, the events and the flag that an edge of a command
in progress may move, and the steps of this hardware that these give. -/

namespace Sys2Proof.Machine

/-! ## A clock edge, situation by situation -/

section
variable {B : Config.Build} {p : Pins} {s : State}

/-- A reset edge (R22, R210). -/
theorem clockEdge_reset (hrst : p.rst = true) : clockEdge B p s = countEdge p (resetBlock s) := by
  simp [clockEdge, blockEdge, hrst]

/-- An edge of the command in progress (R22). -/
theorem clockEdge_busy (hrst : p.rst = false) (hb : s.busy = true) :
    clockEdge B p s = countEdge p (busyEdge B p s) := by
  simp [clockEdge, blockEdge, hrst, hb]

/-- An edge at which a ready block is offered a word (R23). -/
theorem clockEdge_accept (hrst : p.rst = false) (hb : s.busy = false) (hh : s.halted = false)
    (hv : p.cmdValid = true) : clockEdge B p s = countEdge p (accept p.cmdData s) := by
  simp [clockEdge, blockEdge, cmdReady, hrst, hb, hh, hv]

/-- An edge at which no command runs and none is offered (R194). -/
theorem clockEdge_quiet (hrst : p.rst = false) (hb : s.busy = false) (hv : p.cmdValid = false) :
    clockEdge B p s = countEdge p s := by
  simp [clockEdge, blockEdge, hrst, hb, hv]

/-- An edge of the command in progress reads the tick alone of the input pins (R23). -/
theorem busyEdge_congr {q : Pins} (h : p.tickMs = q.tickMs) : busyEdge B p s = busyEdge B q s := by
  have hkey : keyEdge B p s = keyEdge B q s := by simp only [keyEdge, tickCounts, h]
  simp only [busyEdge, morseEdge, hkey]

/-- The model's counters read the tick alone of the input pins. -/
theorem countEdge_congr {q : Pins} (h : p.tickMs = q.tickMs) : countEdge p s = countEdge q s := by
  simp only [countEdge, h]

/-- One reset edge or a run of them: the registers are those of the first (R41, R210). -/
theorem clockRun_reset {ps : List Pins} (h : (p :: ps).all Pins.rst = true) :
    forgetTime (clockRun B (p :: ps) s) = forgetTime (resetBlock s) := by
  induction ps generalizing p s with
  | nil =>
    rw [clockRun_cons, clockRun_nil, clockEdge_reset (by simpa using h)]
    rfl
  | cons q ps ih =>
    obtain ⟨hp, hrest⟩ : p.rst = true ∧ (q :: ps).all Pins.rst = true := by simpa using h
    rw [clockRun_cons, ih hrest, clockEdge_reset hp]
    rfl

end

/-! ## The step of this hardware -/

/-- A step of a ready block that is offered a word is the transaction of that word (R12, R23). -/
theorem step_command {s : State} {w : Cmd} {rest : List HostInput} (hc : sequencerConsistent hardware s = true)
    (hb : s.busy = false) (hh : s.halted = false) (hs : s.script = .command w :: rest) :
    step s = transactionBy exec w (forgetTick (popScript s)) := by
  simp [step, stepBy, hc, hs, cmdReady, hb, hh]

/-- In every build, a step from a consistent sequencer answers a next state. -/
theorem stepIn_next (B : Config.Build) {s : State} (hc : sequencerConsistent B.toParams s = true) :
    ∃ t, stepIn B s = .next t := by
  rw [stepIn, stepBy, if_pos hc]
  split
  · exact ⟨_, rfl⟩
  · exact ⟨_, rfl⟩
  · split
    · exact ⟨_, transactionBy_eq B.toParams _ _⟩
    · exact ⟨_, rfl⟩

/-! ## What a command in progress moves of the command trace and of `INIT_DONE` -/

/-- From `s` to `t` no word was accepted: the command trace is as it was, or gained a completion or a fault; and
`INIT_DONE` was not cleared (R39). -/
structure Advances (s t : State) : Prop where
  trace : t.cmdTrace = s.cmdTrace ∨ ∃ e, (∀ w, e ≠ .accepted w) ∧ t.cmdTrace = s.cmdTrace ++ [e]
  initDone : s.initDone = true → t.initDone = true

section
variable {s t : State}

theorem Advances.of_same (htrace : t.cmdTrace = s.cmdTrace) (hinit : t.initDone = s.initDone) : Advances s t :=
  ⟨.inl htrace, hinit.trans⟩

theorem Advances.of_finish (htrace : t.cmdTrace = s.cmdTrace) (hinit : s.initDone = true → t.initDone = true) :
    Advances s (finish t) :=
  ⟨.inr ⟨.completed, nofun, by rw [finish_cmdTrace, htrace]⟩, hinit⟩

theorem Advances.of_takeFault (code : FaultCode) (opc : Byte) : Advances s (takeFault code opc s) :=
  ⟨.inr ⟨.faulted code opc, nofun, rfl⟩, id⟩

theorem Advances.no_acceptance (h : Advances s t) (w : Cmd) : t.cmdTrace ≠ s.cmdTrace ++ [.accepted w] := by
  obtain heq | ⟨e, he, heq⟩ := h.trace
  · simp [heq]
  · simpa [heq] using he w

end

/-- An effect leaves the command trace alone: acceptance and completion are not its own. -/
theorem effectOf_cmdTrace (P : Config.Params) (i : Instr) (s : State) : (effectOf P i s).cmdTrace = s.cmdTrace :=
  calc (effectOf P i s).cmdTrace
      = (withControl s (effectOf P i s)).cmdTrace := congrArg State.cmdTrace (effectOf_withControl P i s s)
    _ = s.cmdTrace := rfl

/-- Only DDS.INIT moves `INIT_DONE`, and it sets it (R39, R110). -/
theorem effectOf_initDone (P : Config.Params) (i : Instr) (s : State) :
    (effectOf P i s).initDone = (s.initDone || decide (i = .ddsInit)) := by
  cases i with
  | ddsInit => simp [effectOf]
  | morseTx len => simp [effectOf, transmit_eq]
  | _ => simp [effectOf, serialLoad, phases_eq]

/-- A command whose check step is over ends with no acceptance and with `INIT_DONE` no lower. -/
theorem settleChecked_advances (P : Config.Params) (s : State) : Advances s (settleChecked P s) := by
  obtain ⟨⟨code, -, heq⟩, -⟩ | ⟨i, -, -, heq, -⟩ := endCheck_cases P s
  · exact heq ▸ .of_takeFault code _
  · exact heq ▸ .of_finish (effectOf_cmdTrace P i s) fun h => by simp [effectOf_initDone, h]

theorem startInstr_advances (P : Config.Params) (i : Instr) (s : State) : Advances s (startInstr P i s) := by
  cases i with
  | ddsInit | ftwCalc | ftwLoad | ftwTune | morseTx => exact .of_same rfl rfl
  | morseWpm | msgWr | morseLookup | ctrlSet => exact .of_finish rfl id

theorem checkEdge_advances (B : Config.Build) (s : State) : Advances s (checkEdge B s) := by
  obtain heq | heq := checkEdge_cases B s
  · exact heq ▸ .of_same rfl rfl
  · obtain ⟨-, hend⟩ | ⟨i, -, -, -, hend⟩ := endCheck_cases B.toParams s
    · exact (heq.trans hend) ▸ settleChecked_advances B.toParams s
    · exact (heq.trans hend) ▸ startInstr_advances B.toParams i s

theorem initEdge_advances (B : Config.Build) (s : State) : Advances s (initEdge B s) := by
  obtain heq | ⟨-, heq⟩ | ⟨-, heq⟩ := initEdge_cases B s
  · exact heq ▸ .of_same rfl rfl
  · exact heq ▸ .of_same rfl rfl
  · exact heq ▸ .of_finish rfl fun _ => rfl

theorem serialEdge_advances (B : Config.Build) (s : State) : Advances s (serialEdge B s) := by
  obtain heq | ⟨-, heq⟩ | ⟨-, heq⟩ := serialEdge_cases B s
  · exact heq ▸ .of_same rfl rfl
  · exact heq ▸ .of_same rfl rfl
  · exact heq ▸ .of_finish rfl id

section
variable {B : Config.Build} {p : Pins} {s : State}

theorem calcEdge_advances (h : MachineInv B.toParams s) (he : s.seq.eng = .calcWord) :
    Advances s (calcEdge B s) := by
  obtain ⟨-, hinstr⟩ := (consistent_calcWord he).mp h.consistent
  obtain ⟨-, heq⟩ | ⟨f, -, heq⟩ | ⟨f, -, -, heq⟩ | ⟨f, -, -, heq⟩ := calcEdge_cases B (hinstr.imp_right And.left)
  · exact heq ▸ .of_same rfl rfl
  · exact heq ▸ .of_finish rfl id
  · exact heq ▸ .of_same rfl rfl
  · exact heq ▸ .of_same rfl rfl

theorem morseEdge_advances (h : MachineInv B.toParams s) (he : s.seq.eng = .morse) :
    Advances s (morseEdge B p s) := by
  obtain ⟨-, len, -, -, hex⟩ := (consistent_morse he).mp h.consistent
  have hkey : Advances s (keyEdge B p s) := by
    obtain heq | ⟨-, -, heq⟩ | ⟨-, -, heq⟩ | ⟨q, heq, -⟩ := keyEdge_cases B p hex
    · exact heq.symm ▸ .of_same rfl rfl
    · exact heq ▸ .of_same rfl rfl
    · exact heq ▸ .of_finish rfl id
    · exact heq ▸ .of_same rfl rfl
  simp only [morseEdge]
  split
  · exact ⟨hkey.trace, hkey.initDone⟩
  · exact hkey

/-- An edge of the command in progress, whichever engine runs, accepts no word and keeps `INIT_DONE`. -/
theorem busyEdge_advances (h : MachineInv B.toParams s) : Advances s (busyEdge B p s) := by
  cases he : s.seq.eng with
  | idle => simpa [busyEdge, he] using Advances.of_same rfl rfl
  | check => simpa [busyEdge, he] using checkEdge_advances B s
  | calcWord => simpa [busyEdge, he] using calcEdge_advances h he
  | initSeq => simpa [busyEdge, he] using initEdge_advances B s
  | ser => simpa [busyEdge, he] using serialEdge_advances B s
  | morse => simpa [busyEdge, he] using morseEdge_advances h he

/-- An edge with no reset does not clear `INIT_DONE` (R39). -/
theorem clockEdge_keeps_initDone (h : MachineInv B.toParams s) (hrst : p.rst = false) (hi : s.initDone = true) :
    (clockEdge B p s).initDone = true := by
  rw [clockEdge, countEdge_initDone]
  obtain ⟨hr, -⟩ | ⟨-, -, heq⟩ | ⟨-, -, -, -, heq⟩ | ⟨-, -, -, heq⟩ := blockEdge_cases B p s
  · simp [hrst] at hr
  · exact heq ▸ (busyEdge_advances h).initDone hi
  · exact heq ▸ hi
  · exact heq.symm ▸ hi

end

end Sys2Proof.Machine

namespace Sys2Proof.Proofs

open Machine

/-- Settles O8: an offered word reaches `accept`, and in every other case of an edge the command trace gains no
acceptance. -/
theorem acceptanceEdge : Obligations.AcceptanceEdge := by
  intro B p s h
  refine ⟨fun ⟨hv, hb, hh, hrst⟩ => by rw [clockEdge_accept hrst hb hh hv]; rfl, fun hno w => ?_⟩
  rw [clockEdge, countEdge_cmdTrace]
  obtain ⟨-, heq⟩ | ⟨-, -, heq⟩ | ⟨hrst, hb, hh, hv, -⟩ | ⟨-, -, -, heq⟩ := blockEdge_cases B p s
  · simp [heq]
  · exact heq ▸ (busyEdge_advances h).no_acceptance w
  · exact absurd ⟨hv, hb, hh, hrst⟩ hno
  · simp [heq]

/-- Settles O43, from the registers after a run of reset edges. -/
theorem resetSetsEveryRegister : Obligations.ResetSetsEveryRegister := fun _ _ _ _ h => clockRun_reset h

/-- Settles O50: without a reset edge neither a clock edge nor a transaction clears `INIT_DONE`. -/
theorem initDoneClearedOnlyByReset : Obligations.InitDoneClearedOnlyByReset := by
  intro s t h hstep hset hclear
  rw [step_eq_stepIn] at hstep
  obtain ⟨-, ⟨p, hrst, -, rfl, -⟩ | ⟨p, rest, hs, rfl⟩ | ⟨w, rest, -, -, htrans⟩⟩ := stepBy_cases hstep
  · exact absurd (clockEdge_keeps_initDone (B := hardwareBuild) h hrst hset) (by simp [hclear])
  · refine ⟨p, rest, hs, ?_⟩
    by_contra hrst
    have hkept := clockEdge_keeps_initDone (B := hardwareBuild) h.popScript_inv (by simpa using hrst) hset
    exact absurd hkept (by simp [hclear])
  · rw [transactionBy_eq] at htrans
    cases htrans
    exact absurd ((settleChecked_advances hardware (accept w (forgetTick (popScript s)))).initDone hset)
      (by simpa using hclear)

/-- Settles O52: the invariant puts the lines of a block that is not busy where they rest. -/
theorem idleLinesAreLow : Obligations.IdleLinesAreLow := by
  intro s t h hstep hb
  rw [step_eq_stepIn] at hstep
  have ht : MachineInv hardware t := MachineInv.stepIn_inv hardwareBuild_legal h hstep
  have hidle := ht.eng_idle hb
  exact (ht.resting (by simp [hidle, Engine.resting])).linesIdle

/-- Settles O6: the step is a transaction, whose word decodes to the command. -/
theorem stepRunsDecodedCommand : Obligations.StepRunsDecodedCommand := by
  intro s w rest i h ⟨hb, hh⟩ hs hd
  rw [step_command h.consistent hb hh hs, transactionBy, hd]
  simp [accept, forgetTick, popScript, hs]

/-- Settles O9: an edge of a command reads the tick alone, and an idle or halted block that is offered nothing
keeps its registers. -/
theorem edgesIgnored : Obligations.EdgesIgnored := by
  intro B s valid w tick
  refine ⟨fun hb => ?_, fun hb => by rw [clockEdge_quiet rfl hb rfl]; rfl⟩
  have hpins : (⟨false, valid, w, tick⟩ : Pins).tickMs = (quietPins tick).tickMs := rfl
  rw [clockEdge_busy rfl hb, clockEdge_busy rfl hb, busyEdge_congr hpins, countEdge_congr hpins]

/-- Settles O47: the reset state rests, with every register legal and the sequencer idle. -/
theorem invAtReset : Obligations.InvAtReset := fun _ =>
  Resting.inv (s := State.reset)
    { msgWf := reset_msg_wf _, wpmLegal := Nat.zero_le _, lookupLegal := .inl rfl, dropLegal := Nat.zero_le _
      faultRecord := by decide, keyOff := rfl, indOff := rfl, gapLegal := le_refl _, linesIdle := rfl }
    rfl rfl fun _ => rfl

/-- Settles O49: the invariant says that the sequencer is consistent, which is all that a step asks. -/
theorem stepNeverStops : Obligations.StepNeverStops := by
  intro s h
  rw [step_eq_stepIn]
  exact stepIn_next hardwareBuild h.consistent

end Sys2Proof.Proofs
end

section
/-! PROOFS. The word of `LOOKUP`, the ports as functions of the registers, and the lines that a load moves; the
statements about single commands and about the read port that rest on them. -/

namespace Sys2Proof.Machine

/-! ## The word of `LOOKUP` -/

/-- A pattern of a legal dictionary has 1 to 5 symbols (R131). -/
theorem patternOf_length {t : MorseTable} (ht : legalTable t = true) {c : Byte} {p : Pattern}
    (h : patternOf t c = some p) : 1 ≤ p.length ∧ p.length ≤ 5 := by
  simp only [legalTable, Bool.and_eq_true, List.all_eq_true, decide_eq_true_eq] at ht
  exact ht.2 _ (mem_of_patternOf h)

/-- A code is classified as a pattern exactly when it is no space and a key of the dictionary (R132). -/
theorem classify_eq_pattern {t : MorseTable} {c : Byte} {p : Pattern} :
    classify t c = .pattern p ↔ c ≠ 0x20#8 ∧ patternOf t c = some p := by
  unfold classify
  split
  · simp_all
  · split <;> simp_all

/-- Bit `j` of a pattern's bits is 1 exactly when symbol `j` exists and is a dash (R144). -/
theorem testBit_patBits (p : Pattern) (j : Nat) : (patBits p).testBit j = decide (p[j]? = some .dash) := by
  induction p generalizing j with
  | nil => simp [patBits]
  | cons y p ih =>
    cases j with
    | zero => cases y <;> simp [patBits]
    | succ j => cases y <;> simp [patBits, Nat.testBit_succ, Nat.mul_add_div, ih]

/-- The word of a pattern of at most 5 symbols as a number: no field reaches into the next (R37). -/
theorem toNat_lookupValue_pattern {p : Pattern} (h : p.length ≤ 5) :
    (lookupValue (.pattern p)).toNat = 2 + 4 * p.length + 32 * patBits p ∧ patBits p < 32 := by
  have hbits : patBits p < 32 := (patBits_lt p).trans_le (Nat.pow_le_pow_right two_pos h)
  rw [lookupValue_pattern h, BitVec.toNat_ofNat]
  exact ⟨Nat.mod_eq_of_lt (by omega), hbits⟩

/-! ## A legal speed -/

/-- A speed that fits its register gives the unit of R133. -/
theorem unitMs_ofNat {n : Nat} (h0 : 1 ≤ n) (h : n < 2 ^ 16) : unitMs (BitVec.ofNat 16 n) = 1200 / n := by
  have hn : (BitVec.ofNat 16 n).toNat = n := by
    rw [BitVec.toNat_ofNat]
    exact Nat.mod_eq_of_lt h
  have hne : BitVec.ofNat 16 n ≠ 0#16 := fun e => by
    have := congrArg BitVec.toNat e
    rw [hn] at this
    exact absurd this (by simp; omega)
  rw [unitMs, if_neg hne, hn]

/-! ## The lines that a load moves -/

/-- A phase of a load moves neither the output enable nor the reset line (R112). -/
theorem serialPhase_keeps (fr : Frame) (k : Nat) (l : DdsLines) :
    (applyChange (serialPhase fr k) l).oe = l.oe ∧ (applyChange (serialPhase fr k) l).rstLine = l.rstLine := by
  unfold serialPhase
  split
  · split <;> exact ⟨rfl, rfl⟩
  · exact ⟨rfl, rfl⟩

/-- Nor does a run of phases of a load (R112). -/
theorem linesEnd_serial_keeps (fr : Frame) (ks : List Nat) (l : DdsLines) :
    (linesEnd (ks.map (serialPhase fr)) l).oe = l.oe ∧ (linesEnd (ks.map (serialPhase fr)) l).rstLine = l.rstLine := by
  induction ks generalizing l with
  | nil => exact ⟨rfl, rfl⟩
  | cons k ks ih =>
    obtain ⟨hoe, hrst⟩ := serialPhase_keeps fr k l
    obtain ⟨hoe', hrst'⟩ := ih (applyChange (serialPhase fr k) l)
    exact ⟨hoe'.trans hoe, hrst'.trans hrst⟩

/-- A load writes `DDS_WORD`, the lines and their trace, and of the lines neither the output enable nor the reset
line (R112). -/
theorem serialLoad_frame (w : Word) (s : State) :
    ∃ l : DdsLines, l.oe = s.lines.oe ∧ l.rstLine = s.lines.rstLine ∧ serialLoad w s = { s with
      ddsWord := w, lines := l, ddsTrace := s.ddsTrace ++ linesAfter (serialPhases w) s.lines } := by
  obtain ⟨hoe, hrst⟩ := linesEnd_serial_keeps (frame w) (List.range 122) s.lines
  exact ⟨_, hoe, hrst, by rw [serialLoad, phases_eq]; rfl⟩

/-! ## The ports -/

/-- The four flags of `STATUS` are its low bits (R30). -/
theorem statusWord_bits (s : State) :
    (statusWord s).getLsbD 0 = s.busy ∧ (statusWord s).getLsbD 1 = s.initDone ∧ (statusWord s).getLsbD 2 = s.oor ∧
      (statusWord s).getLsbD 3 = s.halted := by
  simp only [statusWord, BitVec.getLsbD_append]
  simp

/-- Above the flags of `STATUS` lie the fault code, the opcode and the reserved bits (R30). -/
theorem statusWord_fields (s : State) :
    (statusWord s).extractLsb' 4 4 = faultCodeBits s.faultCode ∧ (statusWord s).extractLsb' 8 8 = s.faultOpc ∧
      (statusWord s).extractLsb' 16 16 = 0#16 := by
  simp only [statusWord, BitVec.extractLsb'_append_eq_ite]
  simp

/-- The bits of `CTRL` (R31). -/
theorem ctrlWord_fields (s : State) :
    (ctrlWord s).getLsbD 0 = s.indEn ∧ (ctrlWord s).getLsbD 1 = s.strict ∧ (ctrlWord s).extractLsb' 2 30 = 0#30 := by
  simp only [ctrlWord, BitVec.getLsbD_append, BitVec.extractLsb'_append_eq_ite]
  simp

/-- `UNIT_MS` fits its word (R35). -/
theorem toNat_rdData_unit (s : State) :
    (rdData s 5).toNat = if s.wpm.toNat = 0 then 0 else 1200 / s.wpm.toNat := by
  have hrd : rdData s 5 = BitVec.ofNat 32 (unitMs s.wpm) := rfl
  have hunit : unitMs s.wpm = if s.wpm.toNat = 0 then 0 else 1200 / s.wpm.toNat := by
    simp only [unitMs, Config.unitNum, BitVec.toNat_eq, BitVec.toNat_ofNat, Nat.zero_mod]
  have hle : unitMs s.wpm ≤ 1200 := by
    rw [hunit]
    split
    · exact Nat.zero_le _
    · exact Nat.div_le_self _ _
  rw [hrd, BitVec.toNat_ofNat, Nat.mod_eq_of_lt (by omega), hunit]

/-- The ports of a block right after a reset edge are those of the reset state (R211). -/
theorem rdData_after_reset (p : Pins) (s : State) (a : BitVec 4) :
    rdData (countEdge p (resetBlock s)) a = rdData State.reset a := rfl

theorem rdData_reset : ∀ a : BitVec 4, rdData State.reset a = 0x00000000#32 := by decide

/-- No register stands at the addresses from 8 on (R40). -/
theorem rdData_unused (s : State) {a : BitVec 4} (h : 8 ≤ a.toNat) : rdData s a = 0x00000000#32 := by
  unfold rdData
  split
  case h_9 => rfl
  all_goals omega

end Sys2Proof.Machine

namespace Sys2Proof.Proofs

open Machine

/-- Settles O24: a fault changes the fault record only, and each effect of the family is its register writes and its
phases. -/
theorem ftwRegistersFrame : Obligations.FtwRegistersFrame := by
  intro s t
  have unadmitted {i : Instr} {code : FaultCode} {Q : Prop} (hc : checkInstr hardware i s = some code) :
      Admitted i s → Q := fun ha => absurd (hc.symm.trans ha) (by simp)
  refine ⟨fun h => ?ddsInit, fun f h => ?ftwCalc, fun w h => ?ftwLoad, fun f h => ?ftwTune⟩
  case ddsInit =>
    obtain ⟨code, hc, rfl⟩ | ⟨-, rfl⟩ := exec_cases h
    · exact ⟨rfl, rfl, rfl, id, unadmitted hc⟩
    · simp only [effectOf, initPhases_eq]
      exact ⟨rfl, rfl, rfl, fun _ => rfl, fun _ => ⟨rfl, rfl, rfl⟩⟩
  case ftwCalc =>
    obtain ⟨code, hc, rfl⟩ | ⟨-, rfl⟩ := exec_cases h
    · exact ⟨rfl, rfl, rfl, rfl, unadmitted hc⟩
    · exact ⟨rfl, rfl, rfl, rfl, fun _ => ⟨rfl, rfl, rfl⟩⟩
  case ftwLoad =>
    obtain ⟨code, hc, rfl⟩ | ⟨-, rfl⟩ := exec_cases h
    · exact ⟨rfl, rfl, rfl, rfl, rfl, unadmitted hc⟩
    · obtain ⟨l, hoe, hrst, heq⟩ := serialLoad_frame w s
      rw [effectOf_ftwLoad, heq]
      exact ⟨rfl, rfl, rfl, hoe, hrst, fun _ => ⟨rfl, rfl, rfl⟩⟩
  case ftwTune =>
    obtain ⟨code, hc, rfl⟩ | ⟨-, rfl⟩ := exec_cases h
    · exact ⟨rfl, rfl, rfl, unadmitted hc⟩
    · obtain ⟨l, hoe, hrst, heq⟩ := serialLoad_frame (tuningWord f hardware.refclkHz) (writeTuning hardware f s)
      rw [effectOf_ftwTune, heq]
      exact ⟨rfl, hoe, hrst, fun _ => ⟨rfl, rfl, rfl⟩⟩

/-- Settles O35: the fields of the word are read off its number. -/
theorem lookupLayout : Obligations.LookupLayout := by
  intro t c p ht hc
  obtain ⟨-, hp⟩ := classify_eq_pattern.mp hc
  obtain ⟨-, hlen⟩ := patternOf_length ht hp
  obtain ⟨hv, hbits⟩ := toNat_lookupValue_pattern hlen
  rw [hc]
  refine ⟨?cls, ?len, ?reserved, fun j hj => ?pat⟩
  case cls =>
    apply BitVec.eq_of_toNat_eq
    rw [BitVec.extractLsb'_toNat, hv]
    simp
    omega
  case len =>
    rw [BitVec.extractLsb'_toNat, hv, Nat.shiftRight_eq_div_pow]
    omega
  case reserved =>
    apply BitVec.eq_of_toNat_eq
    rw [BitVec.extractLsb'_toNat, hv, Nat.shiftRight_eq_div_pow]
    simp
    omega
  case pat =>
    have hshift : (2 + 4 * p.length + 32 * patBits p) / 2 ^ 5 = patBits p := by omega
    rw [← BitVec.testBit_toNat, hv, ← testBit_patBits, Nat.add_comm 5 j, ← Nat.testBit_div_two_pow, hshift]

/-- Settles O15: a speed of 1 to 1200 passes the one check of MORSE.WPM. -/
theorem morseWpmCompletes : Obligations.MorseWpmCompletes := by
  intro n s h1 h2
  have hpass : checkInstr hardware (.morseWpm n) s = none := checkMorseWpm_eq_none.mpr ⟨by omega, h2⟩
  refine ⟨by rw [exec_eq_execIn, execIn_of_pass hpass]; rfl, unitMs_ofNat h1 (by omega), ?_⟩
  exact (Nat.le_div_iff_mul_le h1).mpr (by omega)

/-- Settles O17: MORSE.LOOKUP makes no check, and the default dictionary is legal, so that the fields of a pattern's
word add up. -/
theorem morseLookupCompletes : Obligations.MorseLookupCompletes := by
  intro ch s
  obtain ⟨⟨-, -, -, -, htable⟩, -⟩ := hardwareBuild_legal
  rw [exec_eq_execIn, execIn_of_pass (i := .morseLookup ch) rfl]
  simp only [effectOf, finish, writeLookup, hardware_morseTable, classify, Host.Outcome.next.injEq, State.mk.injEq,
    true_and, and_true]
  split
  · rfl
  · cases hp : patternOf defaultMorseTable ch with
    | none => rfl
    | some p => exact lookupValue_pattern (patternOf_length htable hp).2

/-- Settles O44: the ports after a reset edge are those of the reset state. -/
theorem portsAfterReset : Obligations.PortsAfterReset := by
  intro B p s hrst
  rw [clockEdge_reset hrst]
  exact ⟨fun a => (rdData_after_reset p s a).trans (rdData_reset a), rfl, rfl, rfl, rfl, rfl⟩

/-- Settles O45: each field by its place in the word, and each other address by its register. -/
theorem readMap : Obligations.ReadMap := by
  intro s
  refine ⟨?status, ?ctrl, rfl, rfl, ?wpm, ?unit, ?drops, rfl, fun a => rdData_unused s⟩
  case status =>
    obtain ⟨hbusy, hinit, hoor, hhalted⟩ := statusWord_bits s
    obtain ⟨hcode, hopc, hres⟩ := statusWord_fields s
    exact ⟨hbusy, hinit, hoor, hhalted, hcode.trans (by cases s.faultCode <;> rfl), hopc, hres⟩
  case ctrl => exact ctrlWord_fields s
  case wpm => exact BitVec.toNat_setWidth_of_le (by decide)
  case unit => exact toNat_rdData_unit s
  case drops => exact BitVec.toNat_setWidth_of_le (by decide)

/-- Settles O46: a DDS pin is its register under the output enable. -/
theorem pinsFollowRegisters : Obligations.PinsFollowRegisters := by
  intro s
  refine ⟨fun h => ?_, fun h => ?_, rfl, rfl, rfl, rfl⟩ <;>
    simp [ddsWclk, ddsFqud, ddsData, ddsReset, ddsPin, h]

end Sys2Proof.Proofs
end

section
/-! PROOFS. An accepted MORSE.TX up to its alignment tick: it is in its check step, and after that it waits with both
keying lines off. -/

namespace Sys2Proof.Machine

section
variable {B : Config.Build} {len : Nat} {trace : List KeyEvent} {n : Nat} {p : Pins} {ps : List Pins} {s : State}

/-! ## Before the first segment -/

/-- A transmission that has begun no segment: both keying lines are off and the keying trace is still `trace`. -/
structure Unkeyed (trace : List KeyEvent) (s : State) : Prop where
  busy : s.busy = true
  key : s.key = false
  ind : s.ind = false
  keyTrace : s.keyTrace = trace

/-- The check step of a MORSE.TX that will pass its checks, `n` edges after acceptance (R182, R230). -/
structure CheckingTx (B : Config.Build) (len : Nat) (trace : List KeyEvent) (n : Nat) (s : State) : Prop
    extends Unkeyed trace s where
  eng : s.seq.eng = .check
  decoded : decode s.seq.opw = .ok (.morseTx len)
  pass : checkInstr B.toParams (.morseTx len) s = none
  cyc : s.seq.cyc = n
  below : n < B.msgDepth + 2

/-- A MORSE.TX that waits for its alignment tick (R151 (1)). -/
structure WaitingTx (trace : List KeyEvent) (s : State) : Prop extends Unkeyed trace s where
  eng : s.seq.eng = .morse
  align : s.seq.align = true

/-- The end of the check step is the start of a command that passes its checks (R182). -/
theorem endCheck_of_pass {P : Config.Params} {i : Instr} (hd : decode s.seq.opw = .ok i)
    (hc : checkInstr P i s = none) : endCheck P s = startInstr P i s := by
  simp [endCheck, hd, hc]

/-- Acceptance begins the check step (R23, R182). -/
theorem CheckingTx.of_accept {w : Cmd} (hd : decode w = .ok (.morseTx len))
    (hc : checkInstr B.toParams (.morseTx len) s = none) (hkey : s.key = false) (hind : s.ind = false) :
    CheckingTx B len s.keyTrace 0 (accept w s) where
  busy := rfl
  key := hkey
  ind := hind
  keyTrace := rfl
  eng := rfl
  decoded := hd
  pass := hc
  cyc := rfl
  below := Nat.succ_pos _

/-- An edge of the check step goes on with it, or ends it and begins the wait, whether it ticks or not (R151 (1),
R187). -/
theorem CheckingTx.clockEdge_cases (h : CheckingTx B len trace n s) (hrst : p.rst = false) :
    CheckingTx B len trace (n + 1) (clockEdge B p s) ∨ WaitingTx trace (clockEdge B p s) := by
  have hedge : clockEdge B p s = countEdge p (checkEdge B s) := by
    rw [clockEdge_busy hrst h.busy, busyEdge, h.eng]
  rw [hedge, checkEdge]
  split
  · right
    rw [endCheck_of_pass h.decoded h.pass]
    exact { busy := h.busy, key := rfl, ind := rfl, keyTrace := h.keyTrace, eng := rfl, align := rfl }
  · rename_i hgo
    left
    have hbelow : n + 1 < B.msgDepth + 2 := by
      simp only [Bool.or_eq_true, decide_eq_true_eq, not_or, not_le, h.cyc] at hgo
      exact hgo.1
    exact { h with cyc := congrArg (· + 1) h.cyc, below := hbelow }

/-- Without a tick the wait goes on (R151 (1)). -/
theorem WaitingTx.clockEdge_keeps (h : WaitingTx trace s) (hrst : p.rst = false) (htick : p.tickMs = false) :
    WaitingTx trace (clockEdge B p s) := by
  have hkey : keyEdge B p s = s := by simp [keyEdge, h.align, htick]
  have hedge : clockEdge B p s = countEdge p (countDrops B s) := by
    rw [clockEdge_busy hrst h.busy, busyEdge, h.eng]
    simp [morseEdge, hkey, h.busy]
  rw [hedge]
  exact { h with }

/-! ## Runs -/

theorem WaitingTx.clockRun_keeps (h : WaitingTx trace s) (hrst : noReset ps = true) (htick : ticksOf ps = 0) :
    WaitingTx trace (clockRun B ps s) := by
  induction ps generalizing s with
  | nil => exact h
  | cons p ps ih =>
    simp only [noReset, List.all_cons, Bool.and_eq_true, Bool.not_eq_true'] at hrst
    obtain ⟨hrest, hp⟩ : ticksOf ps = 0 ∧ p.tickMs = false := by simpa [ticksOf, List.countP_cons] using htick
    exact ih (h.clockEdge_keeps hrst.1 hp) hrst.2 hrest

/-- A run whose every edge leaves the check step going. -/
theorem CheckingTx.clockRun_check (h : CheckingTx B len trace n s) (hrst : noReset ps = true)
    (hcheck : ∀ k ≤ ps.length, (clockRun B (ps.take k) s).seq.eng = .check) :
    CheckingTx B len trace (n + ps.length) (clockRun B ps s) := by
  induction ps generalizing s n with
  | nil => exact h
  | cons p ps ih =>
    simp only [noReset, List.all_cons, Bool.and_eq_true, Bool.not_eq_true'] at hrst
    have hnext : CheckingTx B len trace (n + 1) (clockEdge B p s) := by
      refine (h.clockEdge_cases hrst.1).resolve_right fun hwait => ?_
      have heng := hcheck 1 (by simp)
      rw [List.take_succ_cons, List.take_zero, clockRun_cons, clockRun_nil, hwait.eng] at heng
      exact absurd heng (by decide)
    have hrun := ih hnext hrst.2 fun k hk => hcheck (k + 1) (by simpa using hk)
    rwa [List.length_cons, Nat.add_comm ps.length 1, ← Nat.add_assoc]

/-- A run with no tick after its first edge, which may be the one that ends the check step. -/
theorem CheckingTx.clockRun_cases (h : CheckingTx B len trace n s) (hrst : noReset ps = true)
    (htick : ticksOf (ps.drop 1) = 0) :
    CheckingTx B len trace (n + ps.length) (clockRun B ps s) ∨ WaitingTx trace (clockRun B ps s) := by
  induction ps generalizing s n with
  | nil => exact .inl h
  | cons p ps ih =>
    simp only [noReset, List.all_cons, Bool.and_eq_true, Bool.not_eq_true'] at hrst
    have hps : ticksOf ps = 0 := htick
    obtain hgo | hwait := h.clockEdge_cases hrst.1
    · have hdrop : ticksOf (ps.drop 1) = 0 :=
        Nat.le_zero.mp ((List.drop_sublist 1 ps).countP_le.trans_eq hps)
      have hrun := ih hgo hrst.2 hdrop
      rwa [List.length_cons, Nat.add_comm ps.length 1, ← Nat.add_assoc]
    · exact .inr (hwait.clockRun_keeps hrst.2 hps)

end

end Sys2Proof.Machine

namespace Sys2Proof.Proofs

open Machine

/-- Settles O59: through `qs` the check step goes on, through `rs` it goes on or gives way to the wait, and it is
shorter than `P_MSG_DEPTH + 2` edges. -/
theorem alignmentWaitsForTick : Obligations.AlignmentWaitsForTick := by
  intro B s w len tick qs rs h ⟨hb, hh⟩ hd hc hrst hcheck htick
  obtain ⟨hqs, hrs⟩ : noReset qs = true ∧ noReset rs = true := by simpa [noReset] using hrst
  have hkey : s.key = false := h.key_off (by simp [h.eng_idle hb])
  have hind : s.ind = false := by simpa [hkey] using h.indAt
  have hoffered : CheckingTx B len s.keyTrace 0 (clockEdge B (offerPins w tick) s) := by
    rw [clockEdge_offer hb hh]
    exact { CheckingTx.of_accept hd hc hkey hind with }
  have hchecked := hoffered.clockRun_check hqs hcheck
  rw [clockRun_append]
  obtain hgo | hwait := hchecked.clockRun_cases hrs htick
  · refine ⟨hgo.busy, hgo.key, hgo.ind, hgo.keyTrace, fun hlong => ?_⟩
    have hshort := hgo.below
    simp only [List.length_append] at hlong
    omega
  · exact ⟨hwait.busy, hwait.key, hwait.ind, hwait.keyTrace, fun _ => ⟨hwait.eng, hwait.align⟩⟩

end Sys2Proof.Proofs
end

section
/-! PROOFS. The message buffer in canonical form is its reads: no two buffers of that form read alike. -/

namespace Sys2Proof.Machine

theorem memRead_cons_self (a : Nat) (b : Byte) (m : Memory) : memRead ((a, b) :: m) a = some b := if_pos rfl

theorem memRead_cons_of_ne {a i : Nat} (h : a ≠ i) (b : Byte) (m : Memory) :
    memRead ((a, b) :: m) i = memRead m i := if_neg h

/-- A buffer in canonical form does not read below its first index. -/
theorem memRead_of_lt_head {depth a i : Nat} {b : Byte} {m : Memory}
    (hm : Memory.wf depth ((a, b) :: m) = true) (hi : i < a) : memRead ((a, b) :: m) i = none := by
  obtain ⟨-, -, hall⟩ := Memory.wf_cons.mp hm
  exact memRead_eq_none_of_lt (List.forall_mem_cons.mpr ⟨hi, fun c hc => hi.trans (hall c hc)⟩)

/-- Two buffers in canonical form that read alike begin at the same index, as the later one reads nothing at the
earlier one's. -/
theorem head_le_of_reads {depth a k : Nat} {b v : Byte} {m n : Memory}
    (hn : Memory.wf depth ((k, v) :: n) = true) (h : ∀ i, memRead ((a, b) :: m) i = memRead ((k, v) :: n) i) :
    k ≤ a := by
  by_contra hlt
  have hread := h a
  rw [memRead_cons_self, memRead_of_lt_head hn (not_le.mp hlt)] at hread
  cases hread

/-- Canonical buffers are equal when every address reads alike (R60). -/
theorem Memory.ext_of_reads {depth : Nat} {m n : Memory} (hm : Memory.wf depth m = true)
    (hn : Memory.wf depth n = true) (h : ∀ a, memRead m a = memRead n a) : m = n := by
  induction m generalizing n with
  | nil =>
    cases n with
    | nil => rfl
    | cons d n =>
      obtain ⟨k, v⟩ := d
      simpa [memRead_nil, memRead_cons_self] using h k
  | cons c m ih =>
    obtain ⟨a, b⟩ := c
    cases n with
    | nil => simpa [memRead_nil, memRead_cons_self] using h a
    | cons d n =>
      obtain ⟨k, v⟩ := d
      obtain rfl : a = k := le_antisymm (head_le_of_reads hm fun i => (h i).symm) (head_le_of_reads hn h)
      obtain rfl : b = v := by simpa [memRead_cons_self] using h a
      obtain ⟨-, hmwf, hmabove⟩ := Memory.wf_cons.mp hm
      obtain ⟨-, hnwf, hnabove⟩ := Memory.wf_cons.mp hn
      have htail : ∀ i, memRead m i = memRead n i := fun i => by
        by_cases hi : a = i
        · subst hi
          rw [memRead_eq_none_of_lt hmabove, memRead_eq_none_of_lt hnabove]
        · simpa [memRead_cons_of_ne hi] using h i
      rw [ih hmwf hnwf htail]

end Sys2Proof.Machine

namespace Sys2Proof.Proofs

open Machine

/-- Settles O42: a write keeps the form, and a buffer in that form is determined by its reads. -/
theorem memoryIsCanonical : Obligations.MemoryIsCanonical := fun _ =>
  ⟨fun _ _ _ hm hi => memWrite_wf hm hi, fun _ _ hm hn h => Memory.ext_of_reads hm hn h⟩

end Sys2Proof.Proofs
end

section
/-! PROOFS. While a command runs, the results of the commands before it stay. Nothing here asks for the invariant or
for a legal build: an edge that leaves the command running holds the results from every state. -/

namespace Sys2Proof.Machine

/-! ## The results of the commands before -/

/-- The same command is latched in `t` as in `s`, and the results of the commands before it have not moved: of the
registers the read port shows only `DROP_COUNT` may have, and `FTW` and `OOR` in an FTW.TUNE (R64, R115, R220). -/
structure ResultsHeld (s t : State) : Prop where
  opw : t.seq.opw = s.seq.opw := by rfl
  ddsWord : t.ddsWord = s.ddsWord := by rfl
  lookup : t.lookup = s.lookup := by rfl
  wpm : t.wpm = s.wpm := by rfl
  msg : t.msg = s.msg := by rfl
  initDone : t.initDone = s.initDone := by rfl
  ctrl : SameCtrl s t := by exact ⟨rfl, rfl⟩
  faultRecord : SameFaultRecord s t := by exact ⟨rfl, rfl, rfl⟩
  tuning : (∀ f, currentInstr s ≠ some (.ftwTune f)) → t.ftw = s.ftw ∧ t.oor = s.oor := by
    exact fun _ => ⟨rfl, rfl⟩

section
variable {B : Config.Build} {p : Pins} {ps : List Pins} {s t u : State}

/-- The command in progress is what the latched word decodes to (R45). -/
theorem currentInstr_eq_some {i : Instr} : currentInstr s = some i ↔ decode s.seq.opw = .ok i := by
  cases hd : decode s.seq.opw <;> simp [currentInstr, hd, Except.toOption]

theorem ResultsHeld.trans (h : ResultsHeld s t) (h' : ResultsHeld t u) : ResultsHeld s u where
  opw := h'.opw.trans h.opw
  ddsWord := h'.ddsWord.trans h.ddsWord
  lookup := h'.lookup.trans h.lookup
  wpm := h'.wpm.trans h.wpm
  msg := h'.msg.trans h.msg
  initDone := h'.initDone.trans h.initDone
  ctrl := ⟨h'.ctrl.1.trans h.ctrl.1, h'.ctrl.2.trans h.ctrl.2⟩
  faultRecord :=
    have ⟨hhalted, hcode, hopc⟩ := h.faultRecord
    have ⟨hhalted', hcode', hopc'⟩ := h'.faultRecord
    ⟨hhalted'.trans hhalted, hcode'.trans hcode, hopc'.trans hopc⟩
  tuning := fun hne =>
    have ⟨hftw, hoor⟩ := h.tuning hne
    have ⟨hftw', hoor'⟩ := h'.tuning fun f => currentInstr_congr h.opw ▸ hne f
    ⟨hftw'.trans hftw, hoor'.trans hoor⟩

/-- From `s` to `t` the command ended, or it goes on and the results before it are held. -/
def EndsOrHolds (s t : State) : Prop := t.busy = false ∨ ResultsHeld s t

/-! ## An edge of each engine -/

/-- The commands that write a result in the check step complete in it; the others start an engine. -/
theorem startInstr_endsOrHolds (P : Config.Params) (i : Instr) (s : State) : EndsOrHolds s (startInstr P i s) := by
  cases i with
  | ddsInit | ftwCalc | ftwLoad | ftwTune | morseTx => exact .inr {}
  | morseWpm | msgWr | morseLookup | ctrlSet => exact .inl rfl

theorem checkEdge_endsOrHolds (B : Config.Build) (s : State) : EndsOrHolds s (checkEdge B s) := by
  obtain heq | heq := checkEdge_cases B s
  · exact heq ▸ .inr {}
  · obtain ⟨⟨code, -, hfault⟩, hend⟩ | ⟨i, -, -, -, hend⟩ := endCheck_cases B.toParams s
    · exact (heq.trans (hend.trans hfault)) ▸ .inl rfl
    · exact (heq.trans hend) ▸ startInstr_endsOrHolds B.toParams i s

/-- A calculation writes `FTW` and `OOR` as it completes, or in an FTW.TUNE (R105, R115). -/
theorem calcEdge_endsOrHolds (B : Config.Build) (s : State) : EndsOrHolds s (calcEdge B s) := by
  unfold calcEdge
  split
  · exact .inr {}
  · split
    · exact .inl rfl
    · rename_i f hf
      split
      · exact .inr { tuning := fun hne => absurd hf (hne f) }
      · exact .inr {}
    · exact .inr {}

theorem initEdge_endsOrHolds (B : Config.Build) (s : State) : EndsOrHolds s (initEdge B s) := by
  obtain heq | ⟨-, heq⟩ | ⟨-, heq⟩ := initEdge_cases B s
  · exact heq ▸ .inr {}
  · exact heq ▸ .inr {}
  · exact heq ▸ .inl rfl

theorem serialEdge_endsOrHolds (B : Config.Build) (s : State) : EndsOrHolds s (serialEdge B s) := by
  obtain heq | ⟨-, heq⟩ | ⟨-, heq⟩ := serialEdge_cases B s
  · exact heq ▸ .inr {}
  · exact heq ▸ .inr {}
  · exact heq ▸ .inl rfl

theorem nextSegment_endsOrHolds (t : MorseTable) (s : State) : EndsOrHolds s (nextSegment t s) := by
  unfold nextSegment
  split
  · exact .inl rfl
  · split
    · split <;> exact .inr {}
    · exact .inr {}
  · exact .inr {}

theorem keyEdge_endsOrHolds (B : Config.Build) (p : Pins) (s : State) : EndsOrHolds s (keyEdge B p s) := by
  unfold keyEdge
  split
  · split <;> exact .inr {}
  · split
    · split
      · exact nextSegment_endsOrHolds B.morseTable s
      · exact .inr {}
    · exact .inr {}

theorem morseEdge_endsOrHolds (B : Config.Build) (p : Pins) (s : State) : EndsOrHolds s (morseEdge B p s) := by
  simp only [morseEdge]
  split
  · rename_i hgo
    exact .inr (((keyEdge_endsOrHolds B p s).resolve_left (by simp [hgo])).trans {})
  · exact keyEdge_endsOrHolds B p s

/-- An edge of the command in progress, whichever engine runs. -/
theorem busyEdge_endsOrHolds (B : Config.Build) (p : Pins) (s : State) : EndsOrHolds s (busyEdge B p s) := by
  cases he : s.seq.eng with
  | idle =>
    rw [busyEdge, he]
    exact .inr {}
  | check => simpa [busyEdge, he] using checkEdge_endsOrHolds B s
  | calcWord => simpa [busyEdge, he] using calcEdge_endsOrHolds B s
  | initSeq => simpa [busyEdge, he] using initEdge_endsOrHolds B s
  | ser => simpa [busyEdge, he] using serialEdge_endsOrHolds B s
  | morse => simpa [busyEdge, he] using morseEdge_endsOrHolds B p s

/-! ## Runs -/

/-- A command that has ended stays ended while none is offered, and one that goes on holds the results (R64, R220). -/
theorem EndsOrHolds.clockEdge_keeps (h : EndsOrHolds s t) (hrst : p.rst = false) (hvalid : p.cmdValid = false) :
    EndsOrHolds s (clockEdge B p t) := by
  cases hb : t.busy with
  | false => exact .inl (by rw [clockEdge_quiet hrst hb hvalid, countEdge_busy, hb])
  | true =>
    rw [clockEdge_busy hrst hb]
    have hheld : ResultsHeld s t := h.resolve_left (by simp [hb])
    exact (busyEdge_endsOrHolds B p t).imp id fun hedge => hheld.trans (hedge.trans {})

theorem EndsOrHolds.clockRun_keeps (h : EndsOrHolds s t) (hrst : noReset ps = true) (hvalid : noOffer ps = true) :
    EndsOrHolds s (clockRun B ps t) := by
  induction ps generalizing t with
  | nil => exact h
  | cons p ps ih =>
    simp only [noReset, noOffer, List.all_cons, Bool.and_eq_true, Bool.not_eq_true'] at hrst hvalid
    exact ih (h.clockEdge_keeps hrst.1 hvalid.1) hrst.2 hvalid.2

end

end Sys2Proof.Machine

namespace Sys2Proof.Proofs

open Machine

/-- Settles O54: acceptance moves none of the results, and a run after which the command is still busy has held
them. -/
theorem resultsWaitForCompletion : Obligations.ResultsWaitForCompletion := by
  intro B s w tick ps _ hready hrst hvalid hbusy
  obtain ⟨hb, hh⟩ := hready
  have hoffered : EndsOrHolds (accept w s) (clockEdge B (offerPins w tick) s) := by
    rw [clockEdge_offer hb hh]
    exact .inr {}
  have hrun : EndsOrHolds (accept w s) (clockRun B ps (clockEdge B (offerPins w tick) s)) :=
    hoffered.clockRun_keeps hrst hvalid
  have hheld := hrun.resolve_left (by simp [hbusy])
  exact ⟨hheld.ddsWord, hheld.lookup, hheld.wpm, hheld.msg, hheld.initDone, hheld.ctrl, hheld.faultRecord,
    fun hne => hheld.tuning fun f hf => hne f ((currentInstr_eq_some (s := accept w s)).mp hf)⟩

end Sys2Proof.Proofs
end

section
/-! PROOFS. A serial load raises the latch line in no phase before S120, and a run that has passed that phase does not
come back before it without a new command. -/

namespace Sys2Proof.Machine

section
variable {B : Config.Build} {trace : List DdsLines} {p : Pins} {ps : List Pins} {s : State}

/-! ## Before the latch phase and after it -/

/-- A phase before S120 leaves the latch line alone (R112). -/
theorem serialPhase_keeps_fqud (fr : Frame) {k : Nat} (hk : k < 120) (l : DdsLines) :
    (applyChange (serialPhase fr k) l).fqud = l.fqud := by
  rw [serialPhase, if_pos hk]
  split <;> rfl

/-- A serial load in a phase before S120: the latch is low, and so it is in all that the line trace has gained over
`trace`. -/
structure BeforeLatch (trace : List DdsLines) (s : State) : Prop where
  busy : s.busy = true
  eng : s.seq.eng = .ser
  ph : s.seq.ph < 120
  latchLow : s.lines.fqud = false
  gained : ∃ more, s.ddsTrace = trace ++ more ∧ ∀ l ∈ more, l.fqud = false

/-- A serial load in its two latch phases, or no command at all: where a load goes from S119. -/
def LatchReached (s : State) : Prop :=
  (s.busy = true ∧ s.seq.eng = .ser ∧ 120 ≤ s.seq.ph) ∨ (s.busy = false ∧ s.seq.eng = .idle)

/-- The next phase of a load, when that is before S120 too (R112). -/
theorem BeforeLatch.beginPhase_keeps (h : BeforeLatch trace s) {k : Nat} (hk : k < 120) (fr : Frame) :
    BeforeLatch trace (beginPhase (serialPhase fr k) k s) := by
  have hlow : (applyChange (serialPhase fr k) s.lines).fqud = false := (serialPhase_keeps_fqud fr hk _).trans h.latchLow
  obtain ⟨more, htrace, hmore⟩ := h.gained
  refine { busy := h.busy, eng := h.eng, ph := hk, latchLow := hlow,
           gained := ⟨more ++ [applyChange (serialPhase fr k) s.lines], ?_, ?_⟩ }
  · exact (congrArg (· ++ [_]) htrace).trans (List.append_assoc ..)
  · exact List.forall_mem_append.mpr ⟨hmore, List.forall_mem_singleton.mpr hlow⟩

theorem clockEdge_ser (hrst : p.rst = false) (hb : s.busy = true) (he : s.seq.eng = .ser) :
    clockEdge B p s = countEdge p (serialEdge B s) := by
  rw [clockEdge_busy hrst hb, busyEdge, he]

theorem BeforeLatch.clockEdge_cases (h : BeforeLatch trace s) (hrst : p.rst = false) :
    BeforeLatch trace (clockEdge B p s) ∨ LatchReached (clockEdge B p s) := by
  rw [clockEdge_ser hrst h.busy h.eng]
  obtain heq | ⟨-, heq⟩ | ⟨hlast, -⟩ := serialEdge_cases B s
  · exact heq ▸ .inl { h with }
  · rw [heq]
    by_cases hk : s.seq.ph + 1 < 120
    · exact .inl { h.beginPhase_keeps hk _ with }
    · exact .inr (.inl ⟨h.busy, h.eng, not_lt.mp hk⟩)
  · have := h.ph
    omega

/-- From the latch phases a load goes on or completes, and an idle block stays idle. -/
theorem LatchReached.clockEdge_keeps (h : LatchReached s) (hrst : p.rst = false) (hvalid : p.cmdValid = false) :
    LatchReached (clockEdge B p s) := by
  obtain ⟨hb, he, hph⟩ | ⟨hb, he⟩ := h
  · rw [clockEdge_ser hrst hb he]
    obtain heq | ⟨-, heq⟩ | ⟨-, heq⟩ := serialEdge_cases B s
    · exact heq ▸ .inl ⟨hb, he, hph⟩
    · exact heq ▸ .inl ⟨hb, he, Nat.le_succ_of_le hph⟩
    · exact heq ▸ .inr ⟨rfl, rfl⟩
  · rw [clockEdge_quiet hrst hb hvalid]
    exact .inr ⟨hb, he⟩

/-! ## Runs -/

theorem clockRun_latch_cases (h : BeforeLatch trace s ∨ LatchReached s) (hrst : noReset ps = true)
    (hvalid : noOffer ps = true) : BeforeLatch trace (clockRun B ps s) ∨ LatchReached (clockRun B ps s) := by
  induction ps generalizing s with
  | nil => exact h
  | cons p ps ih =>
    simp only [noReset, noOffer, List.all_cons, Bool.and_eq_true, Bool.not_eq_true'] at hrst hvalid
    refine ih ?_ hrst.2 hvalid.2
    exact h.elim (·.clockEdge_cases hrst.1) fun hpast => .inr (hpast.clockEdge_keeps hrst.1 hvalid.1)

end

end Sys2Proof.Machine

namespace Sys2Proof.Proofs

open Machine

/-- Settles O33: from S0 the run is before the latch phase or has reached it, its last state is before it, and a reset
edge leaves the trace as it is. -/
theorem abortBeforeLatch : Obligations.AbortBeforeLatch := by
  intro B s ps h he hph hrst hvalid heng hlt p hp
  obtain ⟨hb, -⟩ := (consistent_ser he).mp h.consistent
  have hlow : s.lines.fqud = false := by rw [h.linesAt, linesExpected_ser he, hph]; rfl
  have hstart : BeforeLatch s.ddsTrace s :=
    { busy := hb, eng := he, ph := by omega, latchLow := hlow, gained := ⟨[], by simp⟩ }
  have hbefore : BeforeLatch s.ddsTrace (clockRun B ps s) := by
    refine (clockRun_latch_cases (.inl hstart) hrst hvalid).resolve_right ?_
    rintro (⟨-, -, hge⟩ | ⟨-, hidle⟩)
    · omega
    · simp [heng] at hidle
  obtain ⟨more, htrace, hmore⟩ := hbefore.gained
  rw [clockEdge_reset hp]
  exact ⟨more, htrace, hmore, rfl, rfl⟩

end Sys2Proof.Proofs
end

section
/-! PROOFS. The decoder as one row of the opcode table at a time: which row a word's opcode selects, the test of the
row's fixed bits as a test of its fields, and from these the two round trips and the two decode faults. -/

namespace Sys2Proof

/-! ## The row of a word -/

/-- The fields that a row of the opcode table marks "zero" are zero in the word (R82, R85). -/
def OpcodeRow.ReservedZero (r : OpcodeRow) (c : Cmd) : Prop :=
  fieldB c &&& fieldB r.mask = 0#8 ∧ fieldH c &&& fieldH r.mask = 0#16 ∧ fieldW c &&& fieldW r.mask = 0#32

/-- Under its own opcode, a row's mask test looks at the reserved fields only (R82). -/
theorem OpcodeRow.test_iff_reservedZero {r : OpcodeRow} {c : Cmd} (hr : r ∈ opcodeRows) (hopc : fieldOpc c = r.opc) :
    c &&& r.mask = r.pattern ↔ r.ReservedZero c := by
  have hmask : ∀ r ∈ opcodeRows, fieldOpc r.mask = BitVec.allOnes 8 := by decide
  calc c &&& r.mask = r.pattern
      ↔ packFields (fieldOpc c) (fieldB c) (fieldH c) (fieldW c) &&&
          packFields (fieldOpc r.mask) (fieldB r.mask) (fieldH r.mask) (fieldW r.mask) =
        packFields r.opc 0#8 0#16 0#32 := by rw [pack_fields, pack_fields, pattern_pack]
    _ ↔ r.ReservedZero c := by
      rw [and_pack, pack_inj, hmask r hr, BitVec.and_allOnes, hopc, OpcodeRow.ReservedZero]
      simp

/-- No two rows of the table share an opcode, so a word is looked up in the row of its opcode byte (R82). -/
theorem find_row {r : OpcodeRow} {c : Cmd} (hr : r ∈ opcodeRows) (hopc : fieldOpc c = r.opc) :
    opcodeRows.find? (fun r' => r'.opc == fieldOpc c) = some r := by
  have hself : ∀ r ∈ opcodeRows, opcodeRows.find? (fun r' => r'.opc == r.opc) = some r := by simp [opcodeRows]
  rw [hopc]
  exact hself r hr

/-! ## What decodes, and to what -/

theorem decode_of_reservedZero {r : OpcodeRow} {c : Cmd} (hr : r ∈ opcodeRows) (hopc : fieldOpc c = r.opc)
    (hzero : r.ReservedZero c) : decode c = .ok (r.build c) := by
  simp [decode, find_row hr hopc, r.test_iff_reservedZero hr hopc, hzero]

theorem decode_of_not_reservedZero {r : OpcodeRow} {c : Cmd} (hr : r ∈ opcodeRows) (hopc : fieldOpc c = r.opc)
    (hzero : ¬ r.ReservedZero c) : decode c = .error .reservedField := by
  simp [decode, find_row hr hopc, r.test_iff_reservedZero hr hopc, hzero]

theorem decode_of_no_row {c : Cmd} (hnone : ∀ r ∈ opcodeRows, fieldOpc c ≠ r.opc) :
    decode c = .error .illegalOpcode := by
  have hfind : opcodeRows.find? (fun r => r.opc == fieldOpc c) = none := by
    simpa using fun r hr => (hnone r hr).symm
  simp [decode, hfind]

/-- The decoder's three answers, each with what it says of the word (R83 to R85). -/
theorem decode_cases (c : Cmd) :
    (∃ r ∈ opcodeRows, fieldOpc c = r.opc ∧ r.ReservedZero c ∧ decode c = .ok (r.build c)) ∨
    (∃ r ∈ opcodeRows, fieldOpc c = r.opc ∧ ¬ r.ReservedZero c ∧ decode c = .error .reservedField) ∨
    ((∀ r ∈ opcodeRows, fieldOpc c ≠ r.opc) ∧ decode c = .error .illegalOpcode) := by
  by_cases hrow : ∃ r ∈ opcodeRows, fieldOpc c = r.opc
  · obtain ⟨r, hr, hopc⟩ := hrow
    by_cases hzero : r.ReservedZero c
    · exact .inl ⟨r, hr, hopc, hzero, decode_of_reservedZero hr hopc hzero⟩
    · exact .inr (.inl ⟨r, hr, hopc, hzero, decode_of_not_reservedZero hr hopc hzero⟩)
  · have hnone : ∀ r ∈ opcodeRows, fieldOpc c ≠ r.opc := by simpa using hrow
    exact .inr (.inr ⟨hnone, decode_of_no_row hnone⟩)

theorem decode_eq_ok_iff {c : Cmd} {i : Instr} :
    decode c = .ok i ↔ ∃ r ∈ opcodeRows, fieldOpc c = r.opc ∧ r.ReservedZero c ∧ r.build c = i := by
  constructor
  · intro h
    obtain ⟨r, hr, hopc, hzero, hd⟩ | ⟨r, -, -, -, hd⟩ | ⟨-, hd⟩ := decode_cases c
    · exact ⟨r, hr, hopc, hzero, Except.ok.inj (hd.symm.trans h)⟩
    · simp [hd] at h
    · simp [hd] at h
  · rintro ⟨r, hr, hopc, hzero, rfl⟩
    exact decode_of_reservedZero hr hopc hzero

theorem decode_eq_reservedField_iff {c : Cmd} :
    decode c = .error .reservedField ↔ ∃ r ∈ opcodeRows, fieldOpc c = r.opc ∧ ¬ r.ReservedZero c := by
  constructor
  · intro h
    obtain ⟨r, -, -, -, hd⟩ | ⟨r, hr, hopc, hzero, -⟩ | ⟨-, hd⟩ := decode_cases c
    · simp [hd] at h
    · exact ⟨r, hr, hopc, hzero⟩
    · simp [hd] at h
  · rintro ⟨r, hr, hopc, hzero⟩
    exact decode_of_not_reservedZero hr hopc hzero

theorem decode_eq_illegalOpcode_iff {c : Cmd} :
    decode c = .error .illegalOpcode ↔ ∀ r ∈ opcodeRows, fieldOpc c ≠ r.opc := by
  refine ⟨fun h => ?_, decode_of_no_row⟩
  obtain ⟨r, -, -, -, hd⟩ | ⟨r, -, -, -, hd⟩ | ⟨hnone, -⟩ := decode_cases c
  · simp [hd] at h
  · simp [hd] at h
  · exact hnone

/-! ## The table by fields -/

theorem and_ones_byte (b : Byte) : b &&& 0xFF#8 = b := BitVec.and_allOnes

theorem and_ones_half (h : Half) : h &&& 0xFFFF#16 = h := BitVec.and_allOnes

theorem and_ones_word (w : Word) : w &&& 0xFFFFFFFF#32 = w := BitVec.and_allOnes

/-- The reserved bits of the operand byte of CTRL.SET are its upper six (R82). -/
theorem and_ctrlMask_eq_zero : ∀ b : Byte, b &&& 0xFC#8 = 0#8 ↔ b.extractLsb' 2 6 = 0#6 := by decide +kernel

/-- The operand byte of CTRL.SET with its reserved bits zero is its two flags (R82, R170). -/
theorem ctrlByteOperand_of_bits :
    ∀ b : Byte, b.extractLsb' 2 6 = 0#6 → ctrlByteOperand (b[0]) (b[1]) = b := by decide +kernel

theorem ctrlByteOperand_bits (indEn strict : Bool) :
    (ctrlByteOperand indEn strict)[0] = indEn ∧ (ctrlByteOperand indEn strict)[1] = strict ∧
      (ctrlByteOperand indEn strict).extractLsb' 2 6 = 0#6 := by
  revert indEn strict
  decide

/-- The table of R82 read by fields. `Q` says something of the row's reserved-field condition and of the command
that the row builds. -/
theorem exists_row_iff {c : Cmd} {Q : Prop → Instr → Prop} :
    (∃ r ∈ opcodeRows, fieldOpc c = r.opc ∧ Q (r.ReservedZero c) (r.build c)) ↔
      (fieldOpc c = 0x01#8 ∧ Q (fieldB c = 0#8 ∧ fieldH c = 0#16 ∧ fieldW c = 0#32) .ddsInit) ∨
      (fieldOpc c = 0x02#8 ∧ Q (fieldB c = 0#8 ∧ fieldH c = 0#16) (.ftwCalc (fieldW c).toNat)) ∨
      (fieldOpc c = 0x03#8 ∧ Q (fieldB c = 0#8 ∧ fieldH c = 0#16) (.ftwLoad (fieldW c))) ∨
      (fieldOpc c = 0x04#8 ∧ Q (fieldB c = 0#8 ∧ fieldH c = 0#16) (.ftwTune (fieldW c).toNat)) ∨
      (fieldOpc c = 0x10#8 ∧ Q (fieldB c = 0#8 ∧ fieldW c = 0#32) (.morseWpm (fieldH c).toNat)) ∨
      (fieldOpc c = 0x11#8 ∧ Q (fieldW c = 0#32) (.msgWr (fieldH c).toNat (fieldB c))) ∨
      (fieldOpc c = 0x12#8 ∧ Q (fieldH c = 0#16 ∧ fieldW c = 0#32) (.morseLookup (fieldB c))) ∨
      (fieldOpc c = 0x13#8 ∧ Q (fieldB c = 0#8 ∧ fieldW c = 0#32) (.morseTx (fieldH c).toNat)) ∨
      (fieldOpc c = 0x20#8 ∧ Q ((fieldB c).extractLsb' 2 6 = 0#6 ∧ fieldH c = 0#16 ∧ fieldW c = 0#32)
        (.ctrlSet ((fieldB c)[0]) ((fieldB c)[1]))) := by
  simp only [opcodeRows, OpcodeRow.ReservedZero, List.exists_mem_cons_iff, List.not_mem_nil, false_and, exists_false,
    or_false]
  generalize fieldOpc c = o, fieldB c = b, fieldH c = h, fieldW c = w
  simp [fieldB, fieldH, fieldW, and_ones_byte, and_ones_half, and_ones_word, and_ctrlMask_eq_zero]

/-! ## The two round trips -/

theorem fitsW_iff {n : Nat} : fitsW n = true ↔ n ≤ 4294967295 := by simp [fitsW, ← Nat.lt_succ_iff]

theorem fitsH_iff {n : Nat} : fitsH n = true ↔ n ≤ 65535 := by simp [fitsH, ← Nat.lt_succ_iff]

/-- The word of a command stands in the row of its opcode, with the reserved fields zero, and each operand is read back
from its field (R80, R82). -/
theorem decode_encode {i : Instr} (hwf : i.wellFormed = true) : decode (encode i) = .ok i := by
  rw [decode_eq_ok_iff, exists_row_iff (Q := fun zero j => zero ∧ j = i)]
  cases i with
  | ddsInit => simp [encode, Instr.opcode]
  | ftwCalc f => simpa [encode, Instr.opcode] using Nat.lt_succ_of_le (fitsW_iff.mp hwf)
  | ftwLoad w => simp [encode, Instr.opcode]
  | ftwTune f => simpa [encode, Instr.opcode] using Nat.lt_succ_of_le (fitsW_iff.mp hwf)
  | morseWpm n => simpa [encode, Instr.opcode] using Nat.lt_succ_of_le (fitsH_iff.mp hwf)
  | msgWr idx ch => simpa [encode, Instr.opcode] using Nat.lt_succ_of_le (fitsH_iff.mp hwf)
  | morseLookup ch => simp [encode, Instr.opcode]
  | morseTx len => simpa [encode, Instr.opcode] using Nat.lt_succ_of_le (fitsH_iff.mp hwf)
  | ctrlSet a b =>
    obtain ⟨hind, hstrict, hzero⟩ := ctrlByteOperand_bits a b
    simp [encode, Instr.opcode, hind, hstrict, hzero]

/-- A word is packed from what its four fields hold (R80). -/
theorem packFields_of_fields {c : Cmd} {o b : Byte} {h : Half} {w : Word} (ho : fieldOpc c = o) (hb : fieldB c = b)
    (hh : fieldH c = h) (hw : fieldW c = w) : packFields o b h w = c := by
  rw [← ho, ← hb, ← hh, ← hw, pack_fields]

/-- Each row reads its operands from the fields that it does not mark "zero", so that encoding them packs the four
fields of the word again (R82, R85). -/
theorem encode_of_decode {c : Cmd} {i : Instr} (hd : decode c = .ok i) : i.wellFormed = true ∧ encode i = c := by
  rw [decode_eq_ok_iff, exists_row_iff (Q := fun zero j => zero ∧ j = i)] at hd
  have hW := fitsW_iff.mpr (Nat.le_of_lt_succ (fieldW c).isLt)
  have hH := fitsH_iff.mpr (Nat.le_of_lt_succ (fieldH c).isLt)
  obtain ⟨ho, ⟨hb, hh, hw⟩, rfl⟩ | ⟨ho, ⟨hb, hh⟩, rfl⟩ | ⟨ho, ⟨hb, hh⟩, rfl⟩ | ⟨ho, ⟨hb, hh⟩, rfl⟩ |
    ⟨ho, ⟨hb, hw⟩, rfl⟩ | ⟨ho, hw, rfl⟩ | ⟨ho, ⟨hh, hw⟩, rfl⟩ | ⟨ho, ⟨hb, hw⟩, rfl⟩ | ⟨ho, ⟨hb, hh, hw⟩, rfl⟩ := hd
  · exact ⟨rfl, packFields_of_fields ho hb hh hw⟩
  · exact ⟨hW, packFields_of_fields ho hb hh (by simp)⟩
  · exact ⟨rfl, packFields_of_fields ho hb hh rfl⟩
  · exact ⟨hW, packFields_of_fields ho hb hh (by simp)⟩
  · exact ⟨hH, packFields_of_fields ho hb (by simp) hw⟩
  · exact ⟨hH, packFields_of_fields ho rfl (by simp) hw⟩
  · exact ⟨rfl, packFields_of_fields ho rfl hh hw⟩
  · exact ⟨hH, packFields_of_fields ho hb (by simp) hw⟩
  · exact ⟨rfl, packFields_of_fields ho (ctrlByteOperand_of_bits _ hb).symm hh hw⟩

end Sys2Proof

namespace Sys2Proof.Proofs

open Machine

/-- Settles O1: the round trip from a well-formed command, row by row. -/
theorem decodeOfEncode : Obligations.DecodeOfEncode := fun _ => decode_encode

/-- Settles O2: the round trip from a word, row by row. -/
theorem encodeOfDecode : Obligations.EncodeOfDecode := fun _ _ => encode_of_decode

/-- Settles O3: the rows of each clause are the rows of the table under their opcodes, in another order. -/
theorem decodeFaultsExactly : Obligations.DecodeFaultsExactly := by
  intro c
  rw [decode_eq_reservedField_iff, exists_row_iff (Q := fun zero _ => ¬ zero), decode_eq_illegalOpcode_iff]
  refine ⟨by simp [opcodeRows], ?_⟩
  simp only [List.mem_cons, List.not_mem_nil, or_false, not_and_or, ne_eq, or_and_right, or_assoc]
  exact iff_of_eq (by ac_rfl)

/-- Settles O4: the nine commands are well formed, so that it is enough to encode them. -/
theorem exampleWords : Obligations.ExampleWords := by
  intro e he
  obtain ⟨hwf, hword⟩ : e.1.wellFormed = true ∧ encode e.1 = e.2 := by
    revert e
    decide
  exact ⟨hword, hword ▸ decode_encode hwf⟩

/-- Settles O7: the step is a transaction, whose word does not decode. -/
theorem stepFaultsOtherWords : Obligations.StepFaultsOtherWords := by
  intro s w rest e h ⟨hb, hh⟩ hs hd
  rw [step_command h.consistent hb hh hs, transactionBy, hd]
  cases e <;> simp [takeFault, decodeFaultCode, accept, forgetTick, popScript, hs]

end Sys2Proof.Proofs
end

section
/-! PROOFS. The words that the assembler emits: the one word of a checked form, and the words of a text. -/

namespace Sys2Proof.Machine

/-! ## A checked form (R87) -/

theorem emitInstr_eq {ok : Bool} {i : Instr} {p : Prop} [Decidable p] (h : ok = true ∧ i.wellFormed = true ↔ p) :
    emitInstr ok i = if p then some [encode i] else none := by
  simp [emitInstr, h]

/-- What a checked command emits decodes (R87). -/
theorem decodes_of_emitInstr {ok : Bool} {i : Instr} {ws : List Cmd} (h : emitInstr ok i = some ws) :
    ∀ w ∈ ws, ∃ j : Instr, decode w = .ok j := by
  obtain ⟨⟨-, hwf⟩, rfl⟩ : (ok = true ∧ i.wellFormed = true) ∧ [encode i] = ws := by simpa [emitInstr] using h
  simpa using ⟨i, decode_encode hwf⟩

/-! ## A text (R88) -/

theorem length_sendWords (i : Nat) (text : List Nat) : (sendWords i text).length = text.length := by
  induction text generalizing i with
  | nil => rfl
  | cons c cs ih => simp [sendWords, ih]

theorem getElem?_sendWords (i : Nat) {text : List Nat} {k : Nat} (h : k < text.length) :
    (sendWords i text)[k]? = some (encode (.msgWr (i + k) (BitVec.ofNat 8 text[k]))) := by
  induction text generalizing i k with
  | nil => simp at h
  | cons c cs ih =>
    cases k with
    | zero => simp [sendWords]
    | succ k => simp [sendWords, ih (i + 1) (Nat.lt_of_succ_lt_succ h), Nat.add_assoc, Nat.add_comm 1]

theorem mem_sendWords {i : Nat} {text : List Nat} {w : Cmd} (h : w ∈ sendWords i text) :
    ∃ idx < i + text.length, ∃ ch : Byte, w = encode (.msgWr idx ch) := by
  obtain ⟨k, hk, rfl⟩ := List.mem_iff_getElem.mp h
  rw [length_sendWords] at hk
  refine ⟨i + k, by omega, BitVec.ofNat 8 text[k], ?_⟩
  exact Option.some.inj ((List.getElem?_eq_getElem _).symm.trans (getElem?_sendWords i hk))

theorem assemble_morseSend (P : Config.Params) (text : List Nat) :
    assemble P (.morseSend text) = if (∀ c ∈ text, c < 128) ∧ text.length ≤ P.msgDepth then
      some (sendWords 0 text ++ [encode (.morseTx text.length)]) else none := by
  simp [assemble]

/-- Every index and the length fit their field, so what a text emits decodes. -/
theorem decodes_of_morseSend {P : Config.Params} (hP : P.msgDepth ≤ 65535) {text : List Nat} {ws : List Cmd}
    (h : assemble P (.morseSend text) = some ws) : ∀ w ∈ ws, ∃ i : Instr, decode w = .ok i := by
  obtain ⟨⟨-, hlen⟩, rfl⟩ : ((∀ c ∈ text, c < 128) ∧ text.length ≤ P.msgDepth) ∧
      sendWords 0 text ++ [encode (.morseTx text.length)] = ws := by
    simpa [assemble_morseSend] using h
  intro w hw
  obtain hw | hw := List.mem_append.mp hw
  · obtain ⟨idx, hidx, ch, rfl⟩ := mem_sendWords hw
    exact ⟨.msgWr idx ch, decode_encode (fitsH_iff.mpr (by omega))⟩
  · obtain rfl := List.mem_singleton.mp hw
    exact ⟨.morseTx text.length, decode_encode (fitsH_iff.mpr (by omega))⟩

/-! ## A line -/

/-- Every line that is no raw word emits words of commands only (R87, R88). -/
theorem decodes_of_assemble {P : Config.Params} (hP : P.msgDepth ≤ 65535) {l : AsmLine} {ws : List Cmd}
    (hraw : ∀ w, l ≠ .word64 w) (h : assemble P l = some ws) : ∀ w ∈ ws, ∃ i : Instr, decode w = .ok i := by
  cases l with
  | word64 w => exact absurd rfl (hraw w)
  | morseSend text => exact decodes_of_morseSend hP h
  | wait | blank => cases h; simp
  | _ => exact decodes_of_emitInstr h

end Sys2Proof.Machine

namespace Sys2Proof.Proofs

open Machine

/-- Settles O5: a checked form emits its command under the range of its operands, and a text its `sendWords`. -/
theorem assemblerEmitsCommands : Obligations.AssemblerEmitsCommands := by
  intro P hP
  refine ⟨fun l ws hraw h => decodes_of_assemble hP hraw h, fun w => rfl, rfl, rfl,
    fun f => emitInstr_eq ?ftwCalc, fun w => emitInstr_eq ?ftwLoad, fun f => emitInstr_eq ?ftwTune,
    fun n => emitInstr_eq ?morseWpm, fun idx ch => emitInstr_eq ?msgWr, fun ch => emitInstr_eq ?morseLookup,
    fun len => emitInstr_eq ?morseTx, fun a b => emitInstr_eq ?ctrlSet, fun a => ?ctrlCompat, fun a => ?ctrlChecked,
    fun m => emitInstr_eq ?ftwTuneMhz, fun text hascii hlen => ?sent, fun text hbad => ?refused⟩
  case ftwCalc | ftwLoad | ftwTune => simp [Instr.wellFormed, fitsW_iff]
  case morseWpm | morseTx => simp [Instr.wellFormed, fitsH_iff]
  case msgWr => simp [Instr.wellFormed, fitsH_iff, and_comm, ← Nat.lt_succ_iff]
  case morseLookup => simp [Instr.wellFormed, ← Nat.lt_succ_iff]
  case ctrlSet => simp [Instr.wellFormed]
  case ctrlCompat | ctrlChecked => simp [assemble]
  case ftwTuneMhz =>
    have hrange : m * 1000000 ≤ 4294967295 ↔ m ≤ 4294 := by omega
    simp [Instr.wellFormed, fitsW_iff, hrange]
  case sent =>
    rw [assemble_morseSend, if_pos ⟨hascii, hlen⟩]
    exact ⟨sendWords 0 text, rfl, length_sendWords 0 text, fun k h => by simpa using getElem?_sendWords 0 h⟩
  case refused =>
    rw [assemble_morseSend, if_neg]
    rintro ⟨hascii, hlen⟩
    obtain ⟨c, hc, hge⟩ | hlong := hbad
    · exact absurd (hascii c hc) (Nat.not_lt.mpr hge)
    · exact absurd hlen (Nat.not_le.mpr hlong)

end Sys2Proof.Proofs
end

section
/-! PROOFS. The tuning word as a quotient (R100, R102, R117), the frame, and the results of the commands of the FTW
family. -/

namespace Sys2Proof.Machine

/-! ## The tuning word -/

/-- Below the clock nothing is truncated: the word is the quotient (R100, R101). -/
theorem toNat_tuningWord {f C : Nat} (h : f < C) : (tuningWord f C).toNat = f * 2 ^ 32 / C := by
  rw [tuningWord, BitVec.toNat_ofNat]
  exact Nat.mod_eq_of_lt (Nat.div_lt_of_lt_mul (Nat.mul_lt_mul_of_pos_right h (Nat.two_pow_pos 32)))

/-- Whole multiples of the clock add multiples of 2^32 to the quotient, which the truncation drops (R102). -/
theorem tuningWord_mod {C : Nat} (hC : 0 < C) (f : Nat) : tuningWord f C = tuningWord (f % C) C := by
  have hquot : f * 2 ^ 32 / C = 2 ^ 32 * (f / C) + f % C * 2 ^ 32 / C :=
    calc f * 2 ^ 32 / C
        = (C * (f / C) + f % C) * 2 ^ 32 / C := by rw [Nat.div_add_mod]
      _ = (C * (2 ^ 32 * (f / C)) + f % C * 2 ^ 32) / C := by ring_nf
      _ = 2 ^ 32 * (f / C) + f % C * 2 ^ 32 / C := Nat.mul_add_div hC _ _
  apply BitVec.eq_of_toNat_eq
  rw [tuningWord, tuningWord, BitVec.toNat_ofNat, BitVec.toNat_ofNat, hquot, Nat.mul_add_mod]

/-! ## The frame -/

/-- The fields of a frame are its two parts (R111). -/
theorem frame_fields (w : Word) :
    (frame w).extractLsb' 0 32 = w ∧ (frame w).extractLsb' 32 8 = Config.ctrlByte := by
  simp only [frame, BitVec.extractLsb'_append_eq_ite]
  simp

/-! ## What the commands leave -/

/-- A command that passes its checks and answers `t` has had its effect and completed. -/
theorem eq_of_exec_of_pass {i : Instr} {s t : State} (hpass : checkInstr hardware i s = none)
    (h : exec i s = .next t) : t = finish (effectOf hardware i s) := by
  rw [exec_eq_execIn, execIn_of_pass hpass] at h
  cases h
  rfl

/-- A load leaves `FTW` and `OOR` as they are (R112). -/
theorem serialLoad_tuning (w : Word) (s : State) : (serialLoad w s).ftw = s.ftw ∧ (serialLoad w s).oor = s.oor := by
  obtain ⟨l, -, -, heq⟩ := serialLoad_frame w s
  rw [heq]
  exact ⟨rfl, rfl⟩

/-- Completing once more adds one event to the command trace, and nothing else. -/
theorem finish_finish (s : State) :
    finish s = { finish (finish s) with cmdTrace := s.cmdTrace ++ [.completed] } := rfl

end Sys2Proof.Machine

namespace Sys2Proof.Proofs

open Machine

/-! ## The tuning word and the frame -/

/-- Settles O27: a frequency and its remainder by the clock have quotients that differ by a multiple of 2^32. -/
theorem tuningWordAliases : Obligations.TuningWordAliases := fun f _ hC _ _ => tuningWord_mod hC f

/-- Settles O28: below the clock the word is the quotient, and at half of it the numerator is `2^31 * C`, less or more
by 2^31 where the clock is odd. -/
theorem tuningWordAtHalfClock : Obligations.TuningWordAtHalfClock := by
  intro C hC hC32
  refine ⟨fun heven => ?even, fun hodd hC1 => ⟨?below, ?above⟩, fun f hhalf hf => ?upper⟩
  case even =>
    have hnum : C / 2 * 2 ^ 32 = 2 ^ 31 * C := by omega
    rw [tuningWord, hnum, Nat.mul_div_cancel _ hC]
    rfl
  case below =>
    have hnum : (C - 1) / 2 * 2 ^ 32 = C * 2 ^ 31 - (2 ^ 31 - 1 + 1) := by omega
    have hceil : (2 ^ 31 + C - 1) / C = (2 ^ 31 - 1) / C + 1 := by
      rw [← Nat.add_div_right _ hC, Nat.sub_add_comm Nat.one_le_two_pow]
    rw [toNat_tuningWord (by omega), hnum, hceil]
    exact Nat.mul_sub_div _ _ _ (by omega)
  case above =>
    have hnum : (C + 1) / 2 * 2 ^ 32 = C * 2 ^ 31 + 2 ^ 31 := by omega
    rw [toNat_tuningWord (by omega), hnum, Nat.mul_add_div hC]
  case upper =>
    rw [toNat_tuningWord hf]
    exact (Nat.le_div_iff_mul_le hC).mpr (by omega)

/-- Settles O29: in range the word is the quotient, and a quotient is its fraction rounded down. -/
theorem tuningErrorBelowOneStep : Obligations.TuningErrorBelowOneStep := by
  intro f C hC _ hrange
  rw [toNat_tuningWord (by omega)]
  exact ⟨Nat.div_mul_le_self _ _, Nat.lt_mul_of_div_lt (Nat.lt_succ_self _) hC⟩

/-- Settles O31, from the two parts of the frame. -/
theorem frameLayout : Obligations.FrameLayout := fun w =>
  have ⟨hword, hctrl⟩ := frame_fields w
  ⟨hword, hctrl, frame_eq w⟩

/-! ## The commands -/

/-- Settles O10: with `INIT_DONE` = 0 the one check passes, and the three phases set every line. -/
theorem ddsInitCompletes : Obligations.DdsInitCompletes := by
  intro s hinit
  rw [exec_eq_execIn, execIn_of_pass (i := .ddsInit) (checkDdsInit_eq_none.mpr hinit)]
  exact congrArg (fun t => Host.Outcome.next (finish (setInitDone t))) (initPhases_eq s)

/-- Settles O11: the command of every build, at this hardware's clock. -/
theorem ftwCalcCompletes : Obligations.FtwCalcCompletes := by
  intro f s hrange
  obtain ⟨hexec, -, hcalc, -⟩ := commandsTakeParameters hardware s
  exact (hexec _).trans (hcalc f hrange)

/-- Settles O12: with `INIT_DONE` = 1 the one check passes, and the load begins from idle lines. -/
theorem ftwLoadCompletes : Obligations.FtwLoadCompletes := by
  intro w s d hinit hlines
  rw [exec_eq_execIn, execIn_of_pass (i := .ftwLoad w) (checkFtwLoad_eq_none.mpr hinit), effectOf_ftwLoad,
    serialLoad_eq w s d hlines, frame_eq]
  rfl

/-- Settles O13: the command of every build, at this hardware's clock. -/
theorem ftwTuneCompletes : Obligations.FtwTuneCompletes := by
  intro f s d hinit hrange hlines
  obtain ⟨hexec, -, -, htune, -⟩ := commandsTakeParameters hardware s
  exact (hexec _).trans (htune f d hinit hrange hlines)

/-- Settles O14: FTW.LOAD begins where FTW.CALC has completed, its load does not see that completion, and FTW.TUNE is
the same load after the same write. -/
theorem tuneIsCalcThenLoad : Obligations.TuneIsCalcThenLoad := by
  intro f s t u htune hcalc hload
  obtain ⟨hinit, hrange⟩ := checkFtwTune_eq_none.mp htune
  obtain rfl := eq_of_exec_of_pass (i := .ftwCalc f) (checkFtwCalc_eq_none.mpr hrange) hcalc
  have hpass (w : Word) : checkInstr hardware (.ftwLoad w) (finish (effectOf hardware (.ftwCalc f) s)) = none :=
    checkFtwLoad_eq_none.mpr hinit
  obtain rfl := eq_of_exec_of_pass (hpass _) hload
  have htrace : (effectOf hardware (.ftwTune f) s).cmdTrace = s.cmdTrace := effectOf_cmdTrace hardware (.ftwTune f) s
  rw [exec_eq_execIn, execIn_of_pass htune, effectOf_finish, finish_finish, htrace]
  rfl

/-- Settles O30: both commands write the same word and the same flag, and the load of FTW.TUNE moves neither. -/
theorem tuningIsPure : Obligations.TuningIsPure := by
  intro f s s' t t' hcalc htune ht ht'
  obtain rfl := eq_of_exec_of_pass hcalc ht
  obtain rfl := eq_of_exec_of_pass htune ht'
  obtain ⟨hftw, hoor⟩ := serialLoad_tuning (tuningWord f hardware.refclkHz) (writeTuning hardware f s')
  rw [effectOf_ftwTune, finish_ftw, finish_ftw, finish_oor, finish_oor, hftw, hoor]
  exact ⟨rfl, rfl⟩

end Sys2Proof.Proofs
end

section
/-! PROOFS. The line trace of a serial load, read by an observer (R113): three phases a bit, by induction over the
bits still to come, and then the two latch phases. -/

namespace Sys2Proof.Machine

/-! ## The phases of a load by bit -/

/-- The phases of `n` bits from bit `k` on: three a bit. -/
def bitPhases (fr : Frame) (k n : Nat) : List DdsLines := (List.range' (3 * k) (3 * n)).map (serialLinesAt fr)

/-- The two phases that pulse the latch, S120 and S121. -/
def latchPhases (fr : Frame) : List DdsLines := [serialLinesAt fr 120, serialLinesAt fr 121]

/-- The lines while bit `k` is sent, with the write clock at a level. -/
def bitLinesAt (fr : Frame) (k : Nat) (clock : Bool) : DdsLines := ⟨true, clock, false, fr.getLsbD k, false⟩

/-- The phase before the write-clock pulse of bit `k`, the pulse, and the phase after it (R112). -/
theorem serialLinesAt_bit (fr : Frame) {k j : Nat} (hk : k < 40) (hj : j < 3) :
    serialLinesAt fr (3 * k + j) = bitLinesAt fr k (j == 1) := by
  have hbit : min ((3 * k + j) / 3) 39 = k := by omega
  have hlow : 3 * k + j < 120 := by omega
  have hmod : (3 * k + j) % 3 = j := by omega
  have hlatch : (3 * k + j == 120) = false := beq_false_of_ne (by omega)
  simp [serialLinesAt, bitLinesAt, hbit, hlow, hmod, hlatch]

theorem bitPhases_succ (fr : Frame) {k n : Nat} (hk : k < 40) :
    bitPhases fr k (n + 1) =
      bitLinesAt fr k false :: bitLinesAt fr k true :: bitLinesAt fr k false :: bitPhases fr (k + 1) n := by
  have hbefore : serialLinesAt fr (3 * k) = bitLinesAt fr k false := serialLinesAt_bit fr hk (j := 0) (by decide)
  have hpulse : serialLinesAt fr (3 * k + 1) = bitLinesAt fr k true := serialLinesAt_bit fr hk (by decide)
  have hafter : serialLinesAt fr (3 * k + 1 + 1) = bitLinesAt fr k false := serialLinesAt_bit fr hk (j := 2) (by decide)
  simp only [bitPhases, Nat.mul_succ, List.range'_succ, List.map_cons, hbefore, hpulse, hafter]

/-- The trace of a load from idle driven lines is the lines of S0 to S121 (R112). -/
theorem linesAfter_serialPhases (w : Word) (d : Bool) :
    linesAfter (serialPhases w) ⟨true, false, false, d, false⟩ =
      (List.range 122).map (serialLinesAt (frame w)) := linesAfter_serial (frame w) d (le_refl 121)

/-- They are the 40 bits, and then the latch. -/
theorem serialLines_eq (fr : Frame) : (List.range 122).map (serialLinesAt fr) = bitPhases fr 0 40 ++ latchPhases fr :=
  rfl

/-! ## What an observer sees of the bits -/

/-- Each bit has one rise of the write clock, and is low before and after it. -/
theorem risingEdges_bitPhases (fr : Frame) (rest : List DdsLines) {k n : Nat} (h : k + n ≤ 40) :
    risingEdges DdsLines.wclk false (bitPhases fr k n ++ rest) = n + risingEdges DdsLines.wclk false rest := by
  induction n generalizing k with
  | zero => simp [bitPhases]
  | succ n ih =>
    rw [bitPhases_succ fr (by omega)]
    simp [risingEdges, bitLinesAt, ih (k := k + 1) (by omega), Nat.add_comm 1, Nat.add_right_comm]

/-- At that rise `DATA` is the bit. -/
theorem sampleAtRising_bitPhases (fr : Frame) (rest : List DdsLines) {k n : Nat} (h : k + n ≤ 40) :
    sampleAtRising DdsLines.wclk DdsLines.data false (bitPhases fr k n ++ rest) =
      (List.range' k n).map (fun i => fr.getLsbD i) ++ sampleAtRising DdsLines.wclk DdsLines.data false rest := by
  induction n generalizing k with
  | zero => simp [bitPhases]
  | succ n ih =>
    rw [bitPhases_succ fr (by omega)]
    simp [sampleAtRising, bitLinesAt, ih (k := k + 1) (by omega), List.range'_succ]

/-- A line that stays low has no rise. -/
theorem risingEdges_of_low {line : DdsLines → Bool} {ls : List DdsLines} (h : ∀ l ∈ ls, line l = false)
    (rest : List DdsLines) : risingEdges line false (ls ++ rest) = risingEdges line false rest := by
  induction ls with
  | nil => rfl
  | cons l ls ih =>
    obtain ⟨hl, hls⟩ := List.forall_mem_cons.mp h
    simp [risingEdges, hl, ih hls]

/-- No phase of a bit raises the latch (R112). -/
theorem bitPhases_latch_low (fr : Frame) : ∀ l ∈ bitPhases fr 0 40, l.fqud = false := by
  intro l hl
  obtain ⟨k, hk, rfl⟩ := List.mem_map.mp hl
  have hlt : k < 120 := by simpa using List.mem_range'_1.mp hk
  exact beq_false_of_ne (by omega)

end Sys2Proof.Machine

namespace Sys2Proof.Proofs

open Machine

/-- Settles O32: the trace is the lines of S0 to S121, and each property is one of its bits' and of its latch's. -/
theorem serialTraceProperties : Obligations.SerialTraceProperties := by
  intro w d
  have hbits : (bitPhases (frame w) 0 40).length = 120 := by simp [bitPhases]
  simp only [linesAfter_serialPhases]
  refine ⟨by simp, ?clock, ?latch, ?notBefore, ?clockLow, fun k hk j hj => ?data, ?samples, ?others⟩
  case clock =>
    rw [serialLines_eq, risingEdges_bitPhases _ _ (by decide)]
    rfl
  case latch =>
    rw [serialLines_eq, risingEdges_of_low (bitPhases_latch_low _)]
    rfl
  case notBefore =>
    rw [serialLines_eq, List.take_left' hbits, ← List.append_nil (bitPhases _ _ _),
      risingEdges_of_low (bitPhases_latch_low _)]
    rfl
  case clockLow => rfl
  case data =>
    have hlt : 3 * k + j < 122 := by omega
    simp [hlt, serialLinesAt_bit _ hk hj, bitLinesAt]
  case samples =>
    rw [serialLines_eq, sampleAtRising_bitPhases _ _ (by decide), frameBits, List.range_eq_range']
    simp [sampleAtRising, latchPhases, serialLinesAt]
  case others => simp [serialLinesAt]

end Sys2Proof.Proofs
end

section
/-! PROOFS. How long a command other than MORSE.TX takes. Once its checks have passed the number of edges to its
completion is fixed by the state (R105, R112, R116); only the length of the check step is free (R230). Every edge
without reset takes one off that number. -/

namespace Sys2Proof.Machine

section
variable {B : Config.Build} {p : Pins} {ps : List Pins} {n : Nat} {s : State}

/-! ## The edges of a sequence of phases -/

/-- The edges to the end of a sequence whose last phase is `last`, each phase `cycles` long (R116). -/
def phaseEdges (cycles last : Nat) (q : Sequencer) : Nat := (last - q.ph) * cycles + (cycles - (q.cyc + 1)) + 1

/-- A phase that goes on comes one edge nearer to the end. -/
theorem phaseEdges_countCycle {cycles : Nat} (last : Nat) {q : Sequencer} (h : q.cyc + 1 < cycles) :
    phaseEdges cycles last { q with cyc := q.cyc + 1 } + 1 = phaseEdges cycles last q := by
  simp only [phaseEdges]
  omega

/-- So does the edge at which the next phase begins. -/
theorem phaseEdges_nextPhase {cycles last : Nat} {q : Sequencer} (hpos : 1 ≤ cycles) (hcyc : ¬ q.cyc + 1 < cycles)
    (hph : q.ph < last) :
    phaseEdges cycles last { q with ph := q.ph + 1, cyc := 0 } + 1 = phaseEdges cycles last q := by
  have hleft : last - q.ph = last - (q.ph + 1) + 1 := by omega
  simp only [phaseEdges, hleft, Nat.succ_mul]
  omega

/-- At the end of the last phase one edge is left. -/
theorem phaseEdges_last {cycles last : Nat} {q : Sequencer} (hcyc : ¬ q.cyc + 1 < cycles) (hph : ¬ q.ph < last) :
    phaseEdges cycles last q = 1 := by
  have hleft : last - q.ph = 0 := by omega
  simp only [phaseEdges, hleft]
  omega

/-- From the start of its first phase a sequence has all its phases to go. -/
theorem phaseEdges_start {cycles : Nat} (hpos : 1 ≤ cycles) (last : Nat) (q : Sequencer) :
    phaseEdges cycles last { q with ph := 0, cyc := 0 } = (last + 1) * cycles := by
  simp only [phaseEdges, Nat.sub_zero, Nat.succ_mul]
  omega

/-! ## The edges of a command past its check step -/

/-- The command in progress is past its check step and completes at the `n`-th edge from here; it has completed when
`n` is 0. A calculation counts its cycles (R105); an FTW.TUNE spends one more with its word written, and then loads it
(R115, log entry 9). -/
inductive EndsIn (B : Config.Build) (n : Nat) (s : State) : Prop where
  | ended (busy : s.busy = false) (left : n = 0)
  | calcWord (busy : s.busy = true) (eng : s.seq.eng = .calcWord) (f : Nat) (instr : currentInstr s = some (.ftwCalc f))
      (left : n = B.calcCycles - (s.seq.cyc + 1) + 1)
  | tuneWord (busy : s.busy = true) (eng : s.seq.eng = .calcWord) (f : Nat) (instr : currentInstr s = some (.ftwTune f))
      (left : n = B.calcCycles - s.seq.cyc + 1 + 122 * B.phaseCycles)
  | initSeq (busy : s.busy = true) (eng : s.seq.eng = .initSeq) (left : n = phaseEdges B.phaseCycles 2 s.seq)
  | ser (busy : s.busy = true) (eng : s.seq.eng = .ser) (left : n = phaseEdges B.phaseCycles 121 s.seq)

/-- The model's counters do not count. -/
theorem EndsIn.countEdge_keeps (h : EndsIn B n s) (p : Pins) : EndsIn B n (countEdge p s) := by
  cases h with
  | ended hb hn => exact .ended hb hn
  | calcWord hb he f hi hn => exact .calcWord hb he f hi hn
  | tuneWord hb he f hi hn => exact .tuneWord hb he f hi hn
  | initSeq hb he hn => exact .initSeq hb he hn
  | ser hb he hn => exact .ser hb he hn

theorem EndsIn.busy_of_pos (h : EndsIn B n s) (hn : 0 < n) : s.busy = true := by
  cases h with
  | ended hb hz => omega
  | calcWord hb | tuneWord hb | initSeq hb | ser hb => exact hb

theorem EndsIn.not_busy (h : EndsIn B 0 s) : s.busy = false := by
  cases h with
  | ended hb => exact hb
  | calcWord _ _ _ _ hn | tuneWord _ _ _ _ hn => omega
  | initSeq _ _ hn | ser _ _ hn =>
    rw [phaseEdges] at hn
    omega

/-- A load that begins has its 122 phases to go (R112). -/
theorem endsIn_startSerial (hpos : 1 ≤ B.phaseCycles) (hb : s.busy = true) :
    EndsIn B (122 * B.phaseCycles) (startSerial s) :=
  .ser hb rfl (phaseEdges_start hpos 121 _).symm

/-- The edges of a command from the end of its check step to its completion (R105, R110, R112, R115, R230); those of
a MORSE.TX are counted in ticks, not here. -/
def instrEdges (B : Config.Build) : Instr → Nat
  | .ddsInit => 3 * B.phaseCycles
  | .ftwCalc _ => B.calcCycles
  | .ftwLoad _ => 122 * B.phaseCycles
  | .ftwTune _ => B.calcCycles + 1 + 122 * B.phaseCycles
  | .morseWpm _ | .msgWr _ _ | .morseLookup _ | .morseTx _ | .ctrlSet _ _ => 0

theorem instrEdges_le (B : Config.Build) (i : Instr) :
    instrEdges B i ≤ B.calcCycles + 1 + 122 * B.phaseCycles := by
  cases i <;> simp only [instrEdges] <;> omega

/-- A command that has passed its checks starts with all its edges to go. -/
theorem endsIn_startInstr (hB : B.Legal) (hb : s.busy = true) {i : Instr} (hi : currentInstr s = some i)
    (htx : ∀ len, i ≠ .morseTx len) : EndsIn B (instrEdges B i) (startInstr B.toParams i s) := by
  obtain ⟨-, hphase, hcalc⟩ := hB
  cases i with
  | ddsInit => exact .initSeq hb rfl (phaseEdges_start hphase 2 _).symm
  | ftwCalc f => exact .calcWord hb rfl f hi (Nat.sub_add_cancel hcalc).symm
  | ftwLoad w => exact endsIn_startSerial hphase hb
  | ftwTune f => exact .tuneWord hb rfl f hi rfl
  | morseTx len => exact absurd rfl (htx len)
  | morseWpm | msgWr | morseLookup | ctrlSet => exact .ended rfl rfl

/-- An edge of the command in progress takes one edge off. -/
theorem EndsIn.busyEdge_pred (hB : B.Legal) (h : EndsIn B (n + 1) s) (p : Pins) : EndsIn B n (busyEdge B p s) := by
  obtain ⟨-, hphase, -⟩ := hB
  cases h with
  | ended hb hn => omega
  | calcWord hb he f hi hn =>
    simp only [busyEdge, he, calcEdge, hi]
    split
    · exact .calcWord hb he f hi (by simp only [countCycle, setSeq_seq]; omega)
    · exact .ended rfl (by omega)
  | tuneWord hb he f hi hn =>
    simp only [busyEdge, he, calcEdge, hi]
    split
    · exact .tuneWord hb he f hi (by simp only [countCycle, setSeq_seq]; omega)
    · split
      · exact .tuneWord hb he f hi (by simp only [countCycle, setSeq_seq, writeTuning_seq]; omega)
      · have hlast : n = 122 * B.phaseCycles := by omega
        exact hlast ▸ endsIn_startSerial hphase hb
  | initSeq hb he hn =>
    simp only [busyEdge, he, initEdge]
    split
    · exact .initSeq hb he (Nat.succ.inj (hn.trans (phaseEdges_countCycle 2 ‹_›).symm))
    · split
      · exact .initSeq hb he (Nat.succ.inj (hn.trans (phaseEdges_nextPhase hphase ‹_› ‹_›).symm))
      · exact .ended rfl (Nat.succ.inj (hn.trans (phaseEdges_last ‹_› ‹_›)))
  | ser hb he hn =>
    simp only [busyEdge, he, serialEdge]
    split
    · exact .ser hb he (Nat.succ.inj (hn.trans (phaseEdges_countCycle 121 ‹_›).symm))
    · split
      · exact .ser hb he (Nat.succ.inj (hn.trans (phaseEdges_nextPhase hphase ‹_› ‹_›).symm))
      · exact .ended rfl (Nat.succ.inj (hn.trans (phaseEdges_last ‹_› ‹_›)))

/-- So does a clock edge; a block whose command has ended stays as it is while nothing is offered. -/
theorem EndsIn.clockEdge_pred (hB : B.Legal) (h : EndsIn B n s) (hrst : p.rst = false)
    (hvalid : 0 < n ∨ p.cmdValid = false) : EndsIn B (n - 1) (clockEdge B p s) := by
  cases n with
  | zero =>
    have hv : p.cmdValid = false := hvalid.resolve_left (lt_irrefl 0)
    rw [clockEdge_quiet hrst h.not_busy hv]
    exact h.countEdge_keeps p
  | succ n =>
    rw [clockEdge_busy hrst (h.busy_of_pos n.succ_pos)]
    exact (h.busyEdge_pred hB p).countEdge_keeps p

/-! ## The edges of a command with its check step -/

/-- The check step of a command that passes its checks ends in the start of that command (R182). -/
theorem endsIn_endCheck_of_pass (hB : B.Legal) (hb : s.busy = true) {i : Instr} (hd : decode s.seq.opw = .ok i)
    (hc : checkInstr B.toParams i s = none) (htx : ∀ len, i ≠ .morseTx len) :
    EndsIn B (instrEdges B i) (endCheck B.toParams s) := by
  rw [endCheck_of_pass hd hc]
  exact endsIn_startInstr hB hb (currentInstr_eq_some.mpr hd) htx

/-- The check step of a command other than MORSE.TX ends in a fault or in the start of a sequence (R182). -/
theorem endsIn_endCheck (hB : B.Legal) (hb : s.busy = true) (htx : ∀ len, decode s.seq.opw ≠ .ok (.morseTx len)) :
    ∃ n ≤ B.calcCycles + 1 + 122 * B.phaseCycles, EndsIn B n (endCheck B.toParams s) := by
  obtain ⟨⟨code, -, hfault⟩, hend⟩ | ⟨i, hi, -, -, hend⟩ := endCheck_cases B.toParams s
  · exact ⟨0, Nat.zero_le _, hend.trans hfault ▸ .ended rfl rfl⟩
  · have hne : ∀ len, i ≠ .morseTx len := fun len e => htx len (e ▸ currentInstr_eq_some.mp hi)
    exact ⟨instrEdges B i, instrEdges_le B i, hend ▸ endsIn_startInstr hB hb hi hne⟩

/-- An edge that leaves the check step going does not move its end (R182). -/
theorem endCheck_countCycle (P : Config.Params) (p : Pins) (s : State) :
    endCheck P (countEdge p (countCycle s)) = countEdge p (endCheck P s) := by
  have hcheck (i : Instr) : checkInstr P i (countEdge p (countCycle s)) = checkInstr P i s :=
    checkInstr_withControl P i (countEdge p (countCycle s)) s
  have hopw : (countEdge p (countCycle s)).seq.opw = s.seq.opw := rfl
  simp only [endCheck, hopw, hcheck]
  split
  · rfl
  · rename_i i _
    split
    · rfl
    · cases i <;> rfl

/-- The command in progress is busy for at least `lo` more edges and for at most `hi`. In its check step it has a known
number of edges to go after that, and between one and all that are left of `P_MSG_DEPTH + 2` before (R230). -/
inductive EndsBetween (B : Config.Build) (lo hi : Nat) (s : State) : Prop where
  | checking (busy : s.busy = true) (eng : s.seq.eng = .check) {n : Nat} (after : EndsIn B n (endCheck B.toParams s))
      (low : lo ≤ 1 + n) (high : B.msgDepth + 2 - (s.seq.cyc + 1) + 1 + n ≤ hi)
  | checked {n : Nat} (after : EndsIn B n s) (low : lo ≤ n) (high : n ≤ hi)

theorem EndsBetween.busy_of_pos {lo hi : Nat} (h : EndsBetween B lo hi s) (hlo : 0 < lo) : s.busy = true := by
  cases h with
  | checking hb => exact hb
  | checked hafter hlow => exact hafter.busy_of_pos (by omega)

theorem EndsBetween.not_busy {lo : Nat} (h : EndsBetween B lo 0 s) : s.busy = false := by
  cases h with
  | checking _ _ _ _ hhigh => omega
  | checked hafter _ hhigh =>
    obtain rfl := Nat.le_zero.mp hhigh
    exact hafter.not_busy

/-- An accepted word begins the check step, which may take from one edge to `P_MSG_DEPTH + 2` (R23, R230). -/
theorem EndsBetween.of_offer (hb : s.busy = false) (hh : s.halted = false) {w : Cmd} {tick : Bool}
    (hafter : EndsIn B n (endCheck B.toParams (countEdge (offerPins w tick) (accept w s)))) :
    EndsBetween B (1 + n) (B.msgDepth + 2 + n) (clockEdge B (offerPins w tick) s) := by
  rw [clockEdge_offer hb hh]
  refine .checking rfl rfl hafter (le_refl _) ?_
  simp only [countEdge_seq, accept_seq]
  omega

/-- A clock edge takes one edge off both bounds. -/
theorem EndsBetween.clockEdge_pred {lo hi : Nat} (hB : B.Legal) (h : EndsBetween B lo hi s) (hrst : p.rst = false)
    (hvalid : 0 < lo ∨ p.cmdValid = false) : EndsBetween B (lo - 1) (hi - 1) (clockEdge B p s) := by
  cases h with
  | checking hb he hafter hlow hhigh =>
    rw [clockEdge_busy hrst hb, busyEdge, he]
    simp only [checkEdge]
    split
    · exact .checked (hafter.countEdge_keeps p) (by omega) (by omega)
    · rename_i hgo
      have hcyc : s.seq.cyc + 1 < B.msgDepth + 2 := by
        simp only [Bool.or_eq_true, decide_eq_true_eq, not_or, not_le] at hgo
        exact hgo.1
      refine .checking (s := countEdge p (countCycle s)) hb he
        ((endCheck_countCycle B.toParams p s).symm ▸ hafter.countEdge_keeps p) (by omega) ?_
      simp only [countCycle, countEdge_seq, setSeq_seq]
      omega
  | checked hafter hlow hhigh =>
    exact .checked (hafter.clockEdge_pred hB hrst (hvalid.imp_left (by omega))) (by omega) (by omega)

/-- A run takes its edges off both bounds: one that is no longer than the lower bound, whatever is offered during it,
or one during which nothing is offered. -/
theorem EndsBetween.clockRun_sub {lo hi : Nat} (hB : B.Legal) (h : EndsBetween B lo hi s) (hrst : noReset ps = true)
    (hvalid : ps.length ≤ lo ∨ noOffer ps = true) :
    EndsBetween B (lo - ps.length) (hi - ps.length) (clockRun B ps s) := by
  induction ps generalizing lo hi s with
  | nil => exact h
  | cons p ps ih =>
    simp only [noReset, noOffer, List.all_cons, Bool.and_eq_true, Bool.not_eq_true', List.length_cons] at hrst hvalid
    have hedge := h.clockEdge_pred hB hrst.1 (hvalid.imp (by omega) And.left)
    have hrun := ih hedge hrst.2 (hvalid.imp (by omega) And.right)
    rwa [Nat.sub_sub, Nat.sub_sub, Nat.add_comm 1 ps.length] at hrun

/-- A word of a command other than MORSE.TX that passes its checks, offered to a ready block: it takes the edges of
its check step, at least one, and its own. -/
theorem EndsBetween.of_pass (hB : B.Legal) (hready : Ready s) {i : Instr} {w : Cmd} (tick : Bool)
    (hd : decode w = .ok i) (hc : checkInstr B.toParams i s = none) (htx : ∀ len, i ≠ .morseTx len) :
    EndsBetween B (1 + instrEdges B i) (B.msgDepth + 2 + instrEdges B i) (clockEdge B (offerPins w tick) s) := by
  obtain ⟨hb, hh⟩ := hready
  have hpass : checkInstr B.toParams i (countEdge (offerPins w tick) (accept w s)) = none :=
    (checkInstr_withControl B.toParams i (countEdge (offerPins w tick) (accept w s)) s).trans hc
  exact .of_offer hb hh (endsIn_endCheck_of_pass (s := countEdge _ (accept w s)) hB rfl hd hpass htx)

end

end Sys2Proof.Machine

namespace Sys2Proof.Proofs

open Machine

/-- Settles O55: a run as long as the bound leaves no edge to go. -/
theorem commandsComplete : Obligations.CommandsComplete := by
  intro B s w tick ps hB _ ⟨hb, hh⟩ hrst hvalid htx hlong
  obtain ⟨n, hn, hafter⟩ :=
    endsIn_endCheck (s := countEdge (offerPins w tick) (accept w s)) hB rfl htx
  have hrun := (EndsBetween.of_offer hb hh hafter).clockRun_sub hB hrst (.inr hvalid)
  have hover : B.msgDepth + 2 + n - ps.length = 0 := by omega
  exact (hover ▸ hrun).not_busy

/-- Settles O56: a run shorter than the bound leaves an edge to go, whatever is offered during it. -/
theorem loadTakesItsPhases : Obligations.LoadTakesItsPhases := by
  intro B s tick ps hB _ hready hrst
  have busy_after {i : Instr} (hwf : i.wellFormed = true) (hc : checkInstr B.toParams i s = none)
      (htx : ∀ len, i ≠ .morseTx len) (hshort : ps.length < 1 + instrEdges B i) :
      (clockRun B ps (clockEdge B (offerPins (encode i) tick) s)).busy = true :=
    ((EndsBetween.of_pass hB hready tick (decode_encode hwf) hc htx).clockRun_sub hB hrst (.inl hshort.le)).busy_of_pos
      (Nat.sub_pos_of_lt hshort)
  refine ⟨fun word hi hshort => ?ftwLoad, fun f hf hc hshort => ?ftwTune⟩
  case ftwLoad => exact busy_after (i := .ftwLoad word) rfl (checkFtwLoad_eq_none.mpr hi) nofun hshort
  case ftwTune =>
    exact busy_after (i := .ftwTune f) (fitsW_iff.mpr (Nat.le_of_lt_succ hf)) hc nofun
      (by simp only [instrEdges]; omega)

end Sys2Proof.Proofs
end

section
/-! PROOFS. The characters of a message and the segments they become: which codes have a pattern, what a list of
segments adds up to, and where the gaps between letters lie. -/

namespace Sys2Proof.Machine

/-! ## Case folding and classification -/

theorem fold_of_lower {c : Byte} (h : 0x61 ≤ c.toNat ∧ c.toNat ≤ 0x7A) : fold c = c - 0x20#8 := if_pos h

theorem fold_of_not_lower {c : Byte} (h : ¬ (0x61 ≤ c.toNat ∧ c.toNat ≤ 0x7A)) : fold c = c := if_neg h

/-- A lower-case letter moves down by 0x20 (R130). -/
theorem toNat_fold_of_lower {c : Byte} (h : 0x61 ≤ c.toNat ∧ c.toNat ≤ 0x7A) : (fold c).toNat = c.toNat - 0x20 := by
  rw [fold_of_lower h, BitVec.toNat_sub_of_le]
  · rfl
  · rw [BitVec.le_def]
    exact le_trans (by decide) h.1

/-- What folding gives is no lower-case letter, so folding it again changes nothing (R130). -/
@[simp] theorem fold_fold (c : Byte) : fold (fold c) = fold c := by
  by_cases h : 0x61 ≤ c.toNat ∧ c.toNat ≤ 0x7A
  · refine fold_of_not_lower ?_
    rw [toNat_fold_of_lower h]
    omega
  · rw [fold_of_not_lower h, fold_of_not_lower h]

@[simp] theorem classifyFolded_fold (t : MorseTable) (c : Byte) : classifyFolded t (fold c) = classifyFolded t c := by
  rw [classifyFolded, classifyFolded, fold_fold]

/-- A message byte 0x20 is a space in every dictionary (R132). -/
@[simp] theorem classifyFolded_space (t : MorseTable) : classifyFolded t 0x20#8 = .space := rfl

/-- A code is classified as a space exactly when it is 0x20 (R132). -/
theorem classify_eq_space {t : MorseTable} {c : Byte} : classify t c = .space ↔ c = 0x20#8 := by
  unfold classify
  split
  · simp_all
  · split <;> simp_all

theorem exists_patternOf {t : MorseTable} {c : Byte} : (∃ p, patternOf t c = some p) ↔ c ∈ t.map Prod.fst := by
  induction t with
  | nil => simp [patternOf]
  | cons e t ih =>
    obtain ⟨k, p⟩ := e
    by_cases hk : k = c
    · simp [patternOf, hk]
    · simp [patternOf, hk, Ne.symm hk, ih]

/-- The keys of R131 as numbers: `0` to `9` and `A` to `Z`. -/
theorem map_toNat_morseKeys : morseKeys.map BitVec.toNat = List.range' 0x30 10 ++ List.range' 0x41 26 := rfl

theorem mem_morseKeys {c : Byte} :
    c ∈ morseKeys ↔ 0x30 ≤ c.toNat ∧ c.toNat ≤ 0x39 ∨ 0x41 ≤ c.toNat ∧ c.toNat ≤ 0x5A := by
  rw [← List.mem_map_of_injective (f := BitVec.toNat) fun _ _ => BitVec.eq_of_toNat_eq, map_toNat_morseKeys,
    List.mem_append, List.mem_range'_1, List.mem_range'_1]
  omega

/-- A legal dictionary has exactly the keys of R131. -/
theorem mem_keys_of_legal {t : MorseTable} (ht : legalTable t = true) {c : Byte} :
    c ∈ t.map Prod.fst ↔ c ∈ morseKeys := by
  obtain ⟨hperm, -⟩ := Bool.and_eq_true_iff.mp ht
  exact (List.isPerm_iff.mp hperm).mem_iff

/-! ## Totals of segment lists -/

@[simp] theorem totalMs_nil : totalMs [] = 0 := rfl

@[simp] theorem totalMs_cons (g : Segment) (gs : List Segment) : totalMs (g :: gs) = g.ms + totalMs gs := by
  simp [totalMs]

@[simp] theorem totalMs_append (gs hs : List Segment) : totalMs (gs ++ hs) = totalMs gs + totalMs hs := by
  simp [totalMs]

@[simp] theorem onMs_nil : onMs [] = 0 := rfl

@[simp] theorem onMs_cons (g : Segment) (gs : List Segment) :
    onMs (g :: gs) = (if g.level then g.ms else 0) + onMs gs := by
  cases hg : g.level <;> simp [onMs, hg]

@[simp] theorem onMs_append (gs hs : List Segment) : onMs (gs ++ hs) = onMs gs + onMs hs := by
  simp [onMs]

/-- The symbols that a classified character is keyed with. -/
def CharClass.symbols : CharClass → Pattern
  | .pattern p => p
  | .unsupported | .space => []

/-- The character is supported and no space (R132). -/
def CharClass.isPattern : CharClass → Bool
  | .pattern _ => true
  | .unsupported | .space => false

theorem countSymbols_cons (t : MorseTable) (y : Symbol) (c : Byte) (m : List Byte) :
    countSymbols t y (c :: m) = (classifyFolded t c).symbols.count y + countSymbols t y m := by
  rw [countSymbols, List.map_cons, List.sum_cons, countSymbols]
  cases classifyFolded t c <;> rfl

theorem countPatterns_cons (t : MorseTable) (c : Byte) (m : List Byte) :
    countPatterns t (c :: m) = (if (classifyFolded t c).isPattern then 1 else 0) + countPatterns t m := by
  rw [countPatterns, List.countP_cons, Nat.add_comm, countPatterns]
  cases classifyFolded t c <;> rfl

theorem countSpaces_cons (t : MorseTable) (c : Byte) (m : List Byte) :
    countSpaces t (c :: m) = (if classifyFolded t c = .space then 1 else 0) + countSpaces t m := by
  rw [countSpaces, List.countP_cons, Nat.add_comm, countSpaces]
  simp

/-- The marks of a pattern and the pauses after them (R134). -/
theorem onMs_flatMap_symbolSegs (u : Nat) (p : Pattern) :
    onMs (p.flatMap (symbolSegs u)) = (p.count .dot + 3 * p.count .dash) * u := by
  induction p with
  | nil => simp
  | cons y p ih => cases y <;> simp [symbolSegs, markUnits, ih] <;> ring

theorem totalMs_flatMap_symbolSegs (u : Nat) (p : Pattern) :
    totalMs (p.flatMap (symbolSegs u)) =
      (p.count .dot + 3 * p.count .dash) * u + (p.count .dot + p.count .dash) * u := by
  induction p with
  | nil => simp
  | cons y p ih => cases y <;> simp [symbolSegs, markUnits, ih] <;> ring

theorem length_eq_count_dot_add_count_dash (p : Pattern) : p.length = p.count .dot + p.count .dash := by
  induction p with
  | nil => rfl
  | cons y p ih => cases y <;> simp [ih] <;> omega

/-- A symbol raises the key once and leaves it off (R134). -/
theorem keyPulses_symbolSegs (u : Nat) (y : Symbol) (gs : List Segment) :
    keyPulses false (symbolSegs u y ++ gs) = 1 + keyPulses false gs := by
  simp [symbolSegs, keyPulses]

/-- So a pattern raises it once for each of its symbols. -/
theorem keyPulses_flatMap_symbolSegs (u : Nat) (p : Pattern) (gs : List Segment) :
    keyPulses false (p.flatMap (symbolSegs u) ++ gs) = p.length + keyPulses false gs := by
  induction p with
  | nil => simp
  | cons y p ih =>
    rw [List.flatMap_cons, List.append_assoc, keyPulses_symbolSegs, ih, List.length_cons]
    omega

/-- The same of a whole character: its gap, or a space, does not raise the key. -/
theorem keyPulses_charSegs (u : Nat) (k : CharClass) (gs : List Segment) :
    keyPulses false (charSegs u k ++ gs) = k.symbols.length + keyPulses false gs := by
  cases k with
  | unsupported => simp [charSegs, CharClass.symbols]
  | space => simp [charSegs, CharClass.symbols, keyPulses]
  | pattern p =>
    rw [charSegs, List.append_assoc, keyPulses_flatMap_symbolSegs]
    simp [CharClass.symbols, keyPulses]

theorem onMs_charSegs (u : Nat) (k : CharClass) :
    onMs (charSegs u k) = (k.symbols.count .dot + 3 * k.symbols.count .dash) * u := by
  cases k with
  | unsupported => simp [charSegs, CharClass.symbols]
  | space => simp [charSegs, CharClass.symbols]
  | pattern p => simp [charSegs, CharClass.symbols, onMs_flatMap_symbolSegs]

theorem totalMs_charSegs (u : Nat) (k : CharClass) :
    totalMs (charSegs u k) =
      (k.symbols.count .dot + 3 * k.symbols.count .dash) * u + (k.symbols.count .dot + k.symbols.count .dash) * u +
        2 * (if k.isPattern then 1 else 0) * u + 4 * (if k = .space then 1 else 0) * u := by
  cases k with
  | unsupported => simp [charSegs, CharClass.symbols, CharClass.isPattern]
  | space => simp [charSegs, CharClass.symbols, CharClass.isPattern]
  | pattern p => simp [charSegs, CharClass.symbols, CharClass.isPattern, totalMs_flatMap_symbolSegs]

/-! ## Totals of a message -/

theorem onMs_segs (t : MorseTable) (m : List Byte) (u : Nat) :
    onMs (segs t m u) = (countSymbols t .dot m + 3 * countSymbols t .dash m) * u := by
  induction m with
  | nil => simp [tailSeg, countSymbols]
  | cons c m ih =>
    rw [segs_cons, onMs_append, onMs_charSegs, ih, countSymbols_cons, countSymbols_cons]
    ring

theorem totalMs_segs (t : MorseTable) (m : List Byte) (u : Nat) :
    totalMs (segs t m u) =
      (countSymbols t .dot m + 3 * countSymbols t .dash m) * u + (countSymbols t .dot m + countSymbols t .dash m) * u +
        2 * countPatterns t m * u + 4 * countSpaces t m * u + 1000 := by
  induction m with
  | nil => simp [tailSeg, countSymbols, countPatterns, countSpaces]
  | cons c m ih =>
    rw [segs_cons, totalMs_append, totalMs_charSegs, ih, countSymbols_cons, countSymbols_cons, countPatterns_cons,
      countSpaces_cons]
    ring

theorem keyPulses_segs (t : MorseTable) (m : List Byte) (u : Nat) :
    keyPulses false (segs t m u) = countSymbols t .dot m + countSymbols t .dash m := by
  induction m with
  | nil => rfl
  | cons c m ih =>
    rw [segs_cons, keyPulses_charSegs, ih, countSymbols_cons, countSymbols_cons, length_eq_count_dot_add_count_dash]
    ring

/-! ## Characters that leave the segment list alone -/

theorem segs_filter_supported (t : MorseTable) (m : List Byte) (u : Nat) :
    segs t (m.filter (fun c => classifyFolded t c != .unsupported)) u = segs t m u := by
  induction m with
  | nil => rfl
  | cons c m ih =>
    by_cases hc : classifyFolded t c = .unsupported
    · simp [hc, charSegs, ih]
    · simp [hc, ih]

theorem segs_map_fold (t : MorseTable) (m : List Byte) (u : Nat) : segs t (m.map fold) u = segs t m u := by
  induction m with
  | nil => rfl
  | cons c m ih => simp [ih]

theorem segs_replicate_space (t : MorseTable) (k : Nat) (m : List Byte) (u : Nat) :
    segs t (List.replicate k 0x20#8 ++ m) u = List.replicate k ⟨false, 4 * u⟩ ++ segs t m u := by
  induction k with
  | zero => rfl
  | succ k ih => simp [List.replicate_succ, ih, charSegs]

theorem totalMs_replicate (k : Nat) (g : Segment) : totalMs (List.replicate k g) = k * g.ms := by
  simp [totalMs]

end Sys2Proof.Machine

namespace Sys2Proof.Proofs

open Machine

/-- Settles O34, from the two cases of folding. -/
theorem foldMapsLowerCase : Obligations.FoldMapsLowerCase := fun c =>
  ⟨toNat_fold_of_lower, fold_of_not_lower, fold_fold c⟩

/-- Settles O40: the unit is a quotient, so its bounds are those of the divisor. -/
theorem unitTable : Obligations.UnitTable := by
  refine ⟨fun n h1 h2 => ?_, by decide⟩
  rw [unitMs_ofNat h1 (by omega)]
  exact ⟨rfl, (Nat.le_div_iff_mul_le h1).mpr (by omega), Nat.div_le_self 1200 n⟩

/-- Settles O36: a legal dictionary has the 36 keys of R131, and space is none of them. -/
theorem classifyByKey : Obligations.ClassifyByKey := by
  intro t c ht
  refine ⟨classify_eq_space.symm, ?_⟩
  simp only [classify_eq_pattern, exists_and_left, exists_patternOf, mem_keys_of_legal ht, mem_morseKeys]
  refine ⟨fun hkey => ⟨?notSpace, hkey⟩, And.right⟩
  rintro rfl
  exact absurd hkey (by decide)

/-- Settles O37, by the three totals of a segment list. -/
theorem segmentTotals : Obligations.SegmentTotals := fun t m u =>
  ⟨onMs_segs t m u, totalMs_segs t m u, keyPulses_segs t m u⟩

/-- Settles O38: an unsupported character has no segments, and folding a character keeps its class. -/
theorem droppedCharactersTakeNoTime : Obligations.DroppedCharactersTakeNoTime := fun t m u =>
  ⟨segs_filter_supported t m u, segs_map_fold t m u⟩

/-- Settles O39: the first letter is split at its last symbol and the second at its first; between their marks lie the
last pause, the letter gap and the spaces. -/
theorem gapBetweenLetters : Obligations.GapBetweenLetters := by
  intro t a b m k u p q ha hb hp hq
  obtain ⟨ys, y, rfl⟩ := List.eq_nil_or_concat p |>.resolve_left hp
  obtain ⟨z, zs, rfl⟩ := List.exists_cons_of_ne_nil hq
  refine ⟨ys.flatMap (symbolSegs u), markUnits y * u, markUnits z * u,
    ⟨false, u⟩ :: ⟨false, 2 * u⟩ :: List.replicate k ⟨false, 4 * u⟩,
    ⟨false, u⟩ :: (zs.flatMap (symbolSegs u) ++ ⟨false, 2 * u⟩ :: segs t m u), ?list, ?pulses, ?off, ?total⟩
  case list =>
    rw [segs_cons, segs_replicate_space, segs_cons, ha, hb]
    simp [charSegs, symbolSegs]
  case pulses =>
    rw [keyPulses_flatMap_symbolSegs]
    simp [keyPulses]
  case off => simp
  case total =>
    rw [totalMs_cons, totalMs_cons, totalMs_replicate]
    ring

/-- Settles O18: a written message passes the checks, and the bytes of MSG are the message. -/
theorem morseTxCompletes : Obligations.MorseTxCompletes := by
  intro m s hlen hwpm hreads
  obtain ⟨hvalid, hbytes⟩ := msgBytes_of_reads hreads
  have hpass : checkInstr hardware (.morseTx m.length) s = none := checkMorseTx_eq_none.mpr ⟨hwpm, hlen, hvalid⟩
  have hunit : unitMs s.wpm = 1200 / s.wpm.toNat := if_neg hwpm
  rw [exec_eq_execIn, execIn_of_pass hpass, effectOf, transmit_eq, hbytes, hunit]
  rfl

/-- Settles O51: the invariant says it of every state that a step reaches. -/
theorem indicatorFollowsKey : Obligations.IndicatorFollowsKey := by
  intro s t h hstep
  rw [step_eq_stepIn] at hstep
  have ht : MachineInv hardware t := MachineInv.stepIn_inv hardwareBuild_legal h hstep
  have hind : indOut t = (keyOut t && t.indEn) := ht.indAt
  refine ⟨hind, fun hen => by rw [hind, hen, Bool.and_false], fun he => ?_⟩
  have hkey : keyOut t = false := ht.key_off he
  exact ⟨hkey, by rw [hind, hkey, Bool.false_and]⟩

end Sys2Proof.Proofs
end

section
/-! PROOFS. A transmission follows its timeline: in each state the segments still to run, and how a clock edge runs
them down. Then the ticks that count, which are never more than the ticks of the pins. -/

namespace Sys2Proof.Machine

/-! ## One millisecond of a timeline -/

/-- The segments still to run when one more millisecond has passed. -/
def elapse : List Segment → List Segment
  | [] => []
  | g :: gs => if g.ms ≤ 1 then gs else ⟨g.level, g.ms - 1⟩ :: gs

/-- The first segment of a timeline, if there is one, has yet to end. -/
def HeadRuns (gs : List Segment) : Prop := ∀ g ∈ gs.head?, 1 ≤ g.ms

theorem levelAt_elapse {gs : List Segment} (h : HeadRuns gs) (n : Nat) :
    levelAt (elapse gs) n = levelAt gs (n + 1) := by
  cases gs with
  | nil => rfl
  | cons g gs =>
    have hg : 1 ≤ g.ms := h g rfl
    by_cases hms : g.ms ≤ 1
    · have hone : g.ms = 1 := by omega
      simp [elapse, levelAt, hone]
    · have hsub : n + 1 - g.ms = n - (g.ms - 1) := by omega
      simp [elapse, levelAt, hms, hsub, Nat.lt_sub_iff_add_lt]

theorem totalMs_elapse {gs : List Segment} (h : HeadRuns gs) : totalMs (elapse gs) = totalMs gs - 1 := by
  cases gs with
  | nil => rfl
  | cons g gs =>
    have hg : 1 ≤ g.ms := h g rfl
    by_cases hms : g.ms ≤ 1 <;> simp only [elapse, hms, if_true, if_false, totalMs_cons] <;> omega

/-! ## The timeline that a state has still to run -/

/-- A segment of the message is being sent: its level is on the lines, and what is left of it and the segments after it
are the timeline `gs`. -/
structure Keying (t : MorseTable) (indEn : Bool) (gs : List Segment) (s : State) : Prop where
  busy : s.busy = true
  eng : s.seq.eng = .morse
  align : s.seq.align = false
  position : positionExists t (txBytes s) s.seq = true
  unit : 1 ≤ unitMs s.wpm
  rem : 1 ≤ s.seq.rem
  key : s.key = (segmentAt t (txBytes s) (unitMs s.wpm) s.seq.ci s.seq.si s.seq.sub).level
  ind : s.ind = (s.key && indEn)
  control : s.indEn = indEn
  timeline : gs = ⟨s.key, s.seq.rem⟩ :: restSegs t (txBytes s) (unitMs s.wpm) s.seq

/-- The message has been sent: both keying lines are off (R151 (4)). -/
structure Sent (gs : List Segment) (s : State) : Prop where
  busy : s.busy = false
  key : s.key = false
  ind : s.ind = false
  timeline : gs = []

/-- The timeline still to run is `gs`. -/
def HasTimeline (t : MorseTable) (indEn : Bool) (gs : List Segment) (s : State) : Prop :=
  Keying t indEn gs s ∨ Sent gs s

section
variable {B : Config.Build} {t : MorseTable} {indEn : Bool} {gs : List Segment} {p : Pins} {ps : List Pins} {s : State}

theorem HasTimeline.headRuns (h : HasTimeline t indEn gs s) : HeadRuns gs := by
  obtain h | h := h
  · simpa [HeadRuns, h.timeline] using h.rem
  · simp [HeadRuns, h.timeline]

/-- What the lines and `BUSY` show is the start of the timeline (R151 (5), R152). -/
theorem HasTimeline.shows (h : HasTimeline t indEn gs s) :
    s.key = levelAt gs 0 ∧ s.ind = (levelAt gs 0 && indEn) ∧ (s.busy = true ↔ 0 < totalMs gs) := by
  obtain h | h := h
  · have hrem := h.rem
    have hlevel : levelAt gs 0 = s.key := by
      rw [h.timeline, levelAt]
      exact if_pos hrem
    rw [hlevel]
    refine ⟨rfl, h.ind, fun _ => ?_, fun _ => h.busy⟩
    rw [h.timeline, totalMs_cons]
    exact Nat.add_pos_left hrem _
  · rw [h.timeline]
    exact ⟨h.key, h.ind, by simp [h.busy]⟩

/-! ## What an edge leaves of the timeline -/

theorem Keying.countDrops_keeps (h : Keying t indEn gs s) : Keying t indEn gs (countDrops B s) := { h with }

theorem HasTimeline.countEdge_keeps (h : HasTimeline t indEn gs s) (p : Pins) :
    HasTimeline t indEn gs (countEdge p s) := by
  obtain h | h := h
  · exact .inl { h with }
  · exact .inr { h with }

/-- The segments still to come when a segment begins are the timeline then. -/
theorem Begins.keying {q : Sequencer} (h : Begins t s gs q) (hb : s.busy = true) (he : s.seq.eng = .morse)
    (hu : 1 ≤ unitMs s.wpm) : Keying t s.indEn gs (beginSegment t q.ci q.si q.sub s) where
  busy := hb
  eng := he
  align := rfl
  position := h.position
  unit := hu
  rem := one_le_segmentAt_ms t (txBytes s) hu q.ci q.si q.sub
  key := rfl
  ind := rfl
  control := rfl
  timeline := h.pending_eq

/-- An edge of the keying sequencer runs the timeline down by a millisecond exactly when its tick counts. -/
theorem Keying.keyEdge_elapse (h : Keying B.morseTable indEn gs s) :
    HasTimeline B.morseTable indEn (if tickCounts B p s then elapse gs else gs) (keyEdge B p s) := by
  cases hcount : tickCounts B p s with
  | false => exact .inl (by simpa [keyEdge, h.align, hcount] using h)
  | true =>
    by_cases hrem : s.seq.rem ≤ 1
    · have hnext : keyEdge B p s = nextSegment B.morseTable s := by simp [keyEdge, h.align, hcount, hrem]
      have helapse : elapse gs = restSegs B.morseTable (txBytes s) (unitMs s.wpm) s.seq := by
        rw [h.timeline, elapse]
        exact if_pos hrem
      rw [hnext, if_pos rfl, helapse]
      obtain ⟨hclass, heq⟩ | ⟨q, heq, hbegins⟩ := nextSegment_cases h.position
      · have hkey : s.key = false := by simp [h.key, segmentAt, hclass, tailSeg]
        rw [heq]
        exact .inr ⟨rfl, hkey, by simpa [hkey] using h.ind, by simp [restSegs, hclass]⟩
      · rw [heq, ← h.control]
        exact .inl (hbegins.keying h.busy h.eng h.unit)
    · have hless : keyEdge B p s = setSeq { s.seq with rem := s.seq.rem - 1 } s := by
        simp [keyEdge, h.align, hcount, hrem]
      have helapse : elapse gs =
          ⟨s.key, s.seq.rem - 1⟩ :: restSegs B.morseTable (txBytes s) (unitMs s.wpm) s.seq := by
        rw [h.timeline, elapse]
        exact if_neg hrem
      rw [hless]
      exact .inl { h with rem := Nat.le_sub_of_add_le (not_le.mp hrem), timeline := helapse }

/-- The same of a clock edge with no reset and no offer; once the message is sent nothing is left to run down. -/
theorem HasTimeline.clockEdge_elapse (h : HasTimeline B.morseTable indEn gs s) (hrst : p.rst = false)
    (hvalid : p.cmdValid = false) :
    HasTimeline B.morseTable indEn (if tickCounts B p s then elapse gs else gs) (clockEdge B p s) := by
  obtain h | h := h
  · have hedge : clockEdge B p s = countEdge p (morseEdge B p s) := by
      rw [clockEdge_busy hrst h.busy, busyEdge, h.eng]
    rw [hedge, morseEdge]
    obtain hkeying | hsent := h.keyEdge_elapse (p := p)
    · rw [if_pos hkeying.busy]
      exact HasTimeline.countEdge_keeps (.inl hkeying.countDrops_keeps) p
    · simp only [hsent.busy]
      exact HasTimeline.countEdge_keeps (.inr hsent) p
  · have hnil : (if tickCounts B p s then elapse gs else gs) = gs := by simp [h.timeline, elapse]
    rw [clockEdge_quiet hrst h.busy hvalid, hnil]
    exact HasTimeline.countEdge_keeps (.inr h) p

/-- After a run, the lines and `BUSY` show the place in the timeline that the counted ticks give. -/
theorem HasTimeline.clockRun_shows (h : HasTimeline B.morseTable indEn gs s) (hrst : noReset ps = true)
    (hvalid : noOffer ps = true) :
    (clockRun B ps s).key = levelAt gs (countedTicks B ps s) ∧
      (clockRun B ps s).ind = (levelAt gs (countedTicks B ps s) && indEn) ∧
      ((clockRun B ps s).busy = true ↔ countedTicks B ps s < totalMs gs) := by
  induction ps generalizing s gs with
  | nil => exact h.shows
  | cons p ps ih =>
    simp only [noReset, noOffer, List.all_cons, Bool.and_eq_true, Bool.not_eq_true'] at hrst hvalid
    have hrun := ih (h.clockEdge_elapse hrst.1 hvalid.1) hrst.2 hvalid.2
    rw [clockRun_cons, countedTicks]
    cases hcount : tickCounts B p s with
    | false => simpa [hcount] using hrun
    | true =>
      simp only [hcount, if_true, levelAt_elapse h.headRuns, totalMs_elapse h.headRuns] at hrun
      rwa [if_pos rfl, Nat.add_comm, ← Nat.lt_sub_iff_add_lt]

/-- The alignment tick begins the timeline of the whole message (R151 (2)). -/
theorem clockEdge_align (h : MachineInv B.toParams s) (he : s.seq.eng = .morse) (ha : s.seq.align = true)
    (htick : p.tickMs = true) (hrst : p.rst = false) :
    HasTimeline B.morseTable s.indEn (segs B.morseTable (txBytes s) (unitMs s.wpm)) (clockEdge B p s) := by
  obtain ⟨hb, len, -, hc, -⟩ := (consistent_morse he).mp h.consistent
  obtain ⟨hwpm, -, -⟩ := checkMorseTx_eq_none.mp hc
  obtain ⟨q, hq, hbegins⟩ := beginChar_cases B.morseTable s (Nat.zero_le _)
  have hkeying := hbegins.keying hb he (unitMs_pos hwpm h.wpmLegal)
  have hkey : keyEdge B p s = beginSegment B.morseTable q.ci q.si q.sub s := by simp [keyEdge, ha, htick, hq]
  have hedge : clockEdge B p s = countEdge p (countDrops B (beginSegment B.morseTable q.ci q.si q.sub s)) := by
    rw [clockEdge_busy hrst hb, busyEdge, he]
    simp only [morseEdge, hkey, hkeying.busy, if_true]
  rw [hedge]
  exact HasTimeline.countEdge_keeps (.inl hkeying.countDrops_keeps) p

end

/-! ## The edges since the last tick -/

section
variable {B : Config.Build} {p : Pins} {ps : List Pins} {s : State}

theorem startInstr_tickGap (P : Config.Params) (i : Instr) (s : State) : (startInstr P i s).tickGap = s.tickGap := by
  cases i <;> rfl

theorem checkEdge_tickGap : (checkEdge B s).tickGap = s.tickGap := by
  obtain heq | heq := checkEdge_cases B s
  · rw [heq]
    rfl
  · obtain ⟨⟨code, -, hset⟩, hend⟩ | ⟨i, -, -, -, hend⟩ := endCheck_cases B.toParams s
    · rw [heq, hend, hset, takeFault_tickGap]
    · rw [heq, hend, startInstr_tickGap]

theorem initEdge_tickGap : (initEdge B s).tickGap = s.tickGap := by
  obtain heq | ⟨-, heq⟩ | ⟨-, heq⟩ := initEdge_cases B s <;> rw [heq] <;> rfl

theorem serialEdge_tickGap : (serialEdge B s).tickGap = s.tickGap := by
  obtain heq | ⟨-, heq⟩ | ⟨-, heq⟩ := serialEdge_cases B s <;> rw [heq] <;> rfl

theorem calcEdge_tickGap : (calcEdge B s).tickGap = s.tickGap := by
  unfold calcEdge
  split
  · rfl
  · split
    · rfl
    · split <;> rfl
    · rfl

theorem nextSegment_tickGap (t : MorseTable) : (nextSegment t s).tickGap = s.tickGap := by
  unfold nextSegment
  split
  · rfl
  · split
    · split <;> rfl
    · rfl
  · rfl

theorem keyEdge_tickGap : (keyEdge B p s).tickGap = s.tickGap := by
  unfold keyEdge
  split
  · split <;> rfl
  · split
    · split
      · exact nextSegment_tickGap _
      · rfl
    · rfl

theorem morseEdge_tickGap : (morseEdge B p s).tickGap = s.tickGap := by
  simp only [morseEdge]
  split <;> exact keyEdge_tickGap

/-- What an edge does to the registers leaves the count of edges since the last tick, whichever engine runs. -/
theorem blockEdge_tickGap : (blockEdge B p s).tickGap = s.tickGap := by
  obtain ⟨-, heq⟩ | ⟨-, -, heq⟩ | ⟨-, -, -, -, heq⟩ | ⟨-, -, -, heq⟩ := blockEdge_cases B p s
  · rw [heq, resetBlock_tickGap]
  · rw [heq, busyEdge]
    split
    · rfl
    · exact checkEdge_tickGap
    · exact calcEdge_tickGap
    · exact initEdge_tickGap
    · exact serialEdge_tickGap
    · exact morseEdge_tickGap
  · rw [heq, accept_tickGap]
  · rw [heq]

theorem clockEdge_tickGap :
    (clockEdge B p s).tickGap = if p.tickMs then 0 else min (s.tickGap + 1) tickGapMax := by
  rw [clockEdge, countEdge_tickGap, blockEdge_tickGap]

/-! ## The ticks that count -/

theorem ticksOf_cons (p : Pins) (ps : List Pins) : ticksOf (p :: ps) = (if p.tickMs then 1 else 0) + ticksOf ps := by
  rw [ticksOf, List.countP_cons, Nat.add_comm, ticksOf]

theorem tickCounts_of_no_tick (htick : p.tickMs = false) : tickCounts B p s = false := by simp [tickCounts, htick]

theorem tickCounts_of_spaced (htick : p.tickMs = true) (hgap : B.msgDepth + 4 ≤ s.tickGap) :
    tickCounts B p s = true := by
  simp [tickCounts, htick, tickSpacing, hgap]

theorem countedTicks_le (B : Config.Build) (ps : List Pins) (s : State) : countedTicks B ps s ≤ ticksOf ps := by
  induction ps generalizing s with
  | nil => exact le_refl 0
  | cons p ps ih =>
    rw [countedTicks, ticksOf_cons]
    refine Nat.add_le_add ?_ (ih _)
    cases htick : p.tickMs with
    | false => simp [tickCounts_of_no_tick htick]
    | true => split <;> decide

/-- A gap of the pins that is short of the spacing has been counted in full; one that reaches it, at least so far. -/
theorem countedTicks_eq_of_spaced (hdepth : B.msgDepth ≤ 65535) {gap : Nat}
    (hgap : min gap (B.msgDepth + 4) ≤ s.tickGap) (hspaced : ticksSpaced (B.msgDepth + 4) gap ps = true) :
    countedTicks B ps s = ticksOf ps := by
  induction ps generalizing s gap with
  | nil => rfl
  | cons p ps ih =>
    rw [countedTicks, ticksOf_cons]
    cases htick : p.tickMs with
    | false =>
      have hrest : ticksSpaced (B.msgDepth + 4) (gap + 1) ps = true := by simpa [ticksSpaced, htick] using hspaced
      have hafter : (clockEdge B p s).tickGap = min (s.tickGap + 1) tickGapMax := by
        rw [clockEdge_tickGap, htick]
        rfl
      have hnext : min (gap + 1) (B.msgDepth + 4) ≤ (clockEdge B p s).tickGap := by
        rw [hafter, tickGapMax]
        omega
      rw [ih hnext hrest, tickCounts_of_no_tick htick]
    | true =>
      obtain ⟨hlong, hrest⟩ : B.msgDepth + 4 ≤ gap ∧ ticksSpaced (B.msgDepth + 4) 0 ps = true := by
        simpa [ticksSpaced, htick] using hspaced
      rw [ih (by simp) hrest, tickCounts_of_spaced htick (by omega)]

end

end Sys2Proof.Machine

namespace Sys2Proof.Proofs

open Machine

/-- Settles O57: the alignment tick begins the timeline of the message, and each counted tick runs it down by a
millisecond. -/
theorem keyFollowsTimeline : Obligations.KeyFollowsTimeline := by
  intro B s p ps h he ha htick hrst hnorst hnooffer
  exact (clockEdge_align h he ha htick hrst).clockRun_shows hnorst hnooffer

/-- Settles O58: only a tick counts, and one that keeps the spacing finds `tickGap` at least at it. -/
theorem ticksCountOnce : Obligations.TicksCountOnce := fun B s ps =>
  ⟨countedTicks_le B ps s, fun hdepth => countedTicks_eq_of_spaced hdepth (min_le_left ..)⟩

end Sys2Proof.Proofs
end

section
/-! PROOFS. The control family. -/

namespace Sys2Proof.Proofs

open Machine

/-- Settles O19: CTRL.SET makes no check (R170), so that it completes from every state with its one effect. -/
theorem ctrlSetCompletes : Obligations.CtrlSetCompletes := by
  intro indEn strict s
  have hpass : checkInstr hardware (.ctrlSet indEn strict) s = none := rfl
  calc exec (.ctrlSet indEn strict) s
      = .next (finish (effectOf hardware (.ctrlSet indEn strict) s)) := by rw [exec_eq_execIn, execIn_of_pass hpass]
    _ = .next (finish (writeCtrl indEn strict s)) := by rw [effectOf]
    _ = _ := rfl

end Sys2Proof.Proofs
end

section
/-! PROOFS. The fault model: what a failed check answers, and that the state it leaves stays until a reset edge. -/

namespace Sys2Proof.Machine

/-- A halted block accepts nothing: an edge without reset moves the model's counters alone (R183, R184). -/
theorem clockEdge_halted {B : Config.Build} {p : Pins} {s : State} (hrst : p.rst = false) (hb : s.busy = false)
    (hh : s.halted = true) : clockEdge B p s = countEdge p s := by
  have hblock : blockEdge B p s = s := by simp [blockEdge, cmdReady, hrst, hb, hh]
  rw [clockEdge, hblock]

/-- An edge without reset changes, of a halted block, the inputs to come and the model's counters at most. -/
theorem clockEdge_halted_keeps {B : Config.Build} {p : Pins} {s : State} (hrst : p.rst = false)
    (hb : s.busy = false) (hh : s.halted = true) (script : List HostInput) :
    forgetTime { clockEdge B p s with script := script } = forgetTime { s with script := script } := by
  rw [clockEdge_halted hrst hb hh]
  rfl

end Sys2Proof.Machine

namespace Sys2Proof.Proofs

open Machine

/-- Settles O22: a halted block is not busy and not ready, so that its step is a clock edge, never a transaction. -/
theorem haltedUntilReset : Obligations.HaltedUntilReset := by
  intro s t h hh hstep hnorst
  have hb : s.busy = false := h.haltedIdle hh
  obtain ⟨-, ⟨p, hrst, -, rfl, -⟩ | ⟨p, rest, hs, rfl⟩ | ⟨w, rest, -, hready, -⟩⟩ := stepBy_cases hstep
  · exact clockEdge_halted_keeps hrst hb hh s.script
  · exact clockEdge_halted_keeps (s := popScript s) (hnorst p rest hs) hb hh s.script
  · exact absurd hready (by simp [cmdReady, hh])

/-- Settles O21: a failed check takes the fault, whose opcode byte is that of the command's word (R181). -/
theorem faultsArePrecise : Obligations.FaultsArePrecise := by
  intro i s code hcheck
  calc exec i s
      = .next (takeFault code i.opcode s) := by rw [exec_eq_execIn, execIn_of_fault hcheck]
    _ = .next (takeFault code (fieldOpc (encode i)) s) := by rw [fieldOpc_encode]
    _ = _ := rfl

end Sys2Proof.Proofs
end
